-- ==== Sys2Proof/Word.lean ====
section
/-! DEFINITION. The word types of the CHIP-8 core: 8-bit register and memory bytes, 16-bit opcodes and pointers, 4-bit and
12-bit operand fields (00_scope.md R8, R10), and the index of a general register (10_state.md R21). -/

namespace Sys2Proof

/-- A byte of a register, a timer, a user flag or memory. -/
abbrev Byte := BitVec 8

/-- A 16-bit opcode, and the width of `I`, `PC` and the stack entries. -/
abbrev Word := BitVec 16

/-- One of the four nibbles of an opcode (00_scope.md R10). -/
abbrev Nibble := BitVec 4

/-- The 12-bit address field `NNN` of an opcode (30_encoding.md R72). -/
abbrev Addr12 := BitVec 12

/-- The index of a general register, `V0` to `VF` (10_state.md R21). -/
abbrev Reg := Fin 16

end Sys2Proof
end

