-- ==== Sys2Proof/Config.lean ====
section
/-! DEFINITION. What an implementation fixes: the named parameters of 00_scope.md R9, and the two free values the spec leaves
without any default (the random bytes of `RNG` and the bytes of `FONT_HI`), which are opaque: nothing proves a value of one. -/

namespace Sys2Proof

/-- `SHIFT_SRC` (00_scope.md R9, D8): the register that `8XY6` and `8XYE` shift. -/
inductive ShiftSrc where
  | vx
  | vy
  deriving DecidableEq, Repr

/-- `FX1E_FLAG` (00_scope.md R9, D9): what `FX1E` measures its overflow against. -/
inductive Fx1eFlag where
  | carry16
  | aboveFff
  deriving DecidableEq, Repr

/-- `LS_INC_STD` (00_scope.md R9, D10): what `FX55` and `FX65` add to `I` in standard mode. -/
inductive LsIncStd where
  | xPlus1
  | x
  | none
  deriving DecidableEq, Repr

/-- The parameters of 00_scope.md R9 that have a default or are the host's to choose, fixed when the machine is built (10_state.md R37). The state carries one
record of them, so that what is said of every state is said for every value of every parameter (log 38). -/
structure Params where
  /-- `NO_OVERDRAW`, which the host chooses (D34). -/
  noOverdraw : Bool
  /-- `SHIFT_SRC` (D8). -/
  shiftSrc : ShiftSrc
  /-- `FX1E_FLAG` (D9). -/
  fx1eFlag : Fx1eFlag
  /-- `LS_INC_STD` (D10). -/
  lsIncStd : LsIncStd
  /-- `HSCROLL_STD`, a number of pixels (D17). -/
  hscrollStd : Nat
  /-- `FONT_LO`, 80 bytes (D13). -/
  fontLo : Vector Byte 80
  deriving DecidableEq, Repr

/-- FREE VALUE (log 25). The answer of the `RNG` oracle to its `n`-th question: any byte (42_alu.md R154, D25). -/
opaque Config.rng : Nat → Byte

/-- FREE VALUE (log 13). Byte `j` of `FONT_HI`, the one parameter the spec leaves open with no default (20_memory.md R57, D13). -/
opaque Config.fontHi : Nat → Byte

end Sys2Proof
end

