-- ==== Sys2Proof/Machine/Params.lean ====
section
/-! DEFINITION. The fixed values of 00_scope.md R8, the address map and the reset contents of memory (20_memory.md R55 to R57), and
the parameter values a machine takes at State.reset (00_scope.md R9, 95_test_vectors.md). -/

namespace Sys2Proof

/-- `MEM_SIZE`: addresses 0x000 to 0xFFF (00_scope.md R8, 20_memory.md R50). -/
abbrev memSize : Nat := 0x1000

/-- `PROGRAM_BASE`: where `load_program` copies to (00_scope.md R8). -/
abbrev programBase : Nat := 0x200

/-- The longest image `load_program` takes, 0xE00 bytes (70_reset_and_hazards.md R262). -/
abbrev programCapacity : Nat := 0xE00

/-- `PC_RESET` (00_scope.md R8). -/
abbrev pcReset : Word := 0x200

/-- `FB_CELLS`: 128 × 64 (00_scope.md R8). -/
abbrev fbCells : Nat := 8192

/-- The address of glyph 0 of `FONT_LO` (20_memory.md R55, D12; log 12). -/
abbrev fontLoBase : Nat := 0x000

/-- The address of glyph 0 of `FONT_HI`, the end of `FONT_LO` (20_memory.md R55, D12; log 12). -/
abbrev fontHiBase : Nat := 0x050

/-- The first address above the font region (20_memory.md R55). -/
abbrev fontEnd : Nat := 0x0F0

/-- What a byte of memory holds after `init()` (20_memory.md R55, 10_state.md R41): the font, and 0 everywhere else. It is what an
address that the memory does not list reads as (log 41). -/
def Params.resetByte (p : Params) (a : Nat) : Byte :=
  if a < fontHiBase then p.fontLo.toList.getD (a - fontLoBase) 0
  else if a < fontEnd then Config.fontHi (a - fontHiBase)
  else 0

/-- The default of `FONT_LO`, one glyph a line (20_memory.md R56). PRESUMED (log 13): general knowledge, not the source's. -/
def fontLoDefault : Vector Byte 80 :=
  #v[0xF0, 0x90, 0x90, 0x90, 0xF0,
     0x20, 0x60, 0x20, 0x20, 0x70,
     0xF0, 0x10, 0xF0, 0x80, 0xF0,
     0xF0, 0x10, 0xF0, 0x10, 0xF0,
     0x90, 0x90, 0xF0, 0x10, 0x10,
     0xF0, 0x80, 0xF0, 0x10, 0xF0,
     0xF0, 0x80, 0xF0, 0x90, 0xF0,
     0xF0, 0x10, 0x20, 0x40, 0x40,
     0xF0, 0x90, 0xF0, 0x90, 0xF0,
     0xF0, 0x90, 0xF0, 0x10, 0xF0,
     0xF0, 0x90, 0xF0, 0x90, 0x90,
     0xE0, 0x90, 0xE0, 0x90, 0xE0,
     0xF0, 0x80, 0x80, 0x80, 0xF0,
     0xE0, 0x90, 0x90, 0x90, 0xE0,
     0xF0, 0x80, 0xF0, 0x80, 0xF0,
     0xF0, 0x80, 0xF0, 0x80, 0x80]

/-- The parameters of State.reset: the defaults of 00_scope.md R9, and `NO_OVERDRAW = false`, which 95_test_vectors.md takes.
DESIGN CHOICE (log 38): the spec leaves every one of them open. -/
def Params.default : Params where
  noOverdraw := false
  shiftSrc := .vx
  fx1eFlag := .carry16
  lsIncStd := .xPlus1
  hscrollStd := 2
  fontLo := fontLoDefault

end Sys2Proof
end

