-- ==== Sys2Proof/Machine/State.lean ====
section
/-! DEFINITION. The machine's state: every component of 10_state.md R20, and two fields of the model's own (`params`, `rngCount`).
The reasons a step stops are the one fault of 60_exceptions.md R221 and the refusals of R225. -/

namespace Sys2Proof.Machine

/-- The machine's own fault: the one exception the core raises (60_exceptions.md R221). -/
inductive Fault where
  /-- The fetched opcode matches no row of the table. Raised by the step after decode, before any effect; it records the address
  and the bits of the opcode. The spec's own fault, so neither a safe nor an unsafe departure (log 26). -/
  | unknownOpcode (pc0 op : Word)
  deriving DecidableEq, Repr

/-- The cases the spec gives no meaning (60_exceptions.md R225). Each is safe: nothing is claimed past it (logs 2, 3, 20, 23, 29). -/
inductive Refusal where
  /-- An instruction that has no meaning yet; raised by `exec`'s arm for it only. Safe. -/
  | notModelled (mnemonic : String)
  /-- `pc0 + 1 > 0xFFF` at fetch; raised by the step (30_encoding.md R70). Safe. -/
  | fetchOutOfRange (pc0 : Word)
  /-- `DXYN`, `FX33`, `FX55` or `FX65` would touch an address above 0xFFF; raised by those four (20_memory.md R54). Safe. -/
  | memOutOfRange
  /-- `2NNN` with `SP = 0`; raised by it (41_control_flow.md R122). Safe. -/
  | stackOverflow
  /-- `00EE` with `SP = 16`; raised by it (41_control_flow.md R120). Safe. -/
  | stackUnderflow
  /-- `EX9E` or `EXA1` with `V[X] > 15`; raised by those two (44_keypad_timers.md R200). Safe. -/
  | keyIndexOutOfRange
  /-- `FX75` or `FX85` with X > 7; raised by those two (43_index_memory.md R177, R178). Safe. -/
  | userFlagIndexOutOfRange
  /-- `load_program` with more than 3584 bytes; raised by that host operation, never by a step (70_reset_and_hazards.md R262). Safe. -/
  | imageTooLarge
  deriving DecidableEq, Repr

/-- How the machine stands (10_state.md R38). -/
inductive Status where
  | running
  | faulted (pc0 op : Word)
  | refused (reason : Refusal)
  deriving DecidableEq, Repr

/-- Memory as the rising list of the (address, byte) pairs that differ from the reset contents (log 41). -/
abbrev Memory := List Host.Cell

/-- The framebuffer as the rising list of the indices of its lit cells (10_state.md R34 lets a cell be a bool; log 40). -/
abbrev Framebuffer := List Nat

/-- The state of the core (10_state.md R20). -/
structure State where
  /-- `V[0]` to `V[0xF]`; VF is an ordinary register in storage (R21, R22). -/
  v : Vector Byte 16
  /-- The index register (R23). -/
  i : Word
  /-- The program counter: between steps, the address of the next opcode (R24). -/
  pc : Word
  /-- The stack pointer, 16 when the stack is empty and 0 when it is full (R26). -/
  sp : Fin 17
  /-- The return stack; the live entries are those from `sp` up (R27). -/
  stack : Vector Word 16
  /-- The delay timer (R28). -/
  dt : Byte
  /-- The sound timer (R29). -/
  st : Byte
  /-- The keypad, true where a key is down (R30). -/
  key : Vector Bool 16
  /-- The extended-mode flag (R31). -/
  ext : Bool
  /-- The user flags (R32). -/
  uflag : Vector Byte 8
  /-- The memory image (20_memory.md R50). -/
  mem : Memory
  /-- The framebuffer (R34, R35). -/
  fb : Framebuffer
  /-- The redraw flag (R36). -/
  draw : Bool
  /-- How the machine stands (R38). -/
  status : Status
  /-- MODEL'S OWN (log 38): the parameters fixed at construction, written by nothing (R37). -/
  params : Params
  /-- MODEL'S OWN (log 25): how many bytes the `RNG` oracle has been asked for. -/
  rngCount : Nat
  deriving DecidableEq, Repr

/-- `init()` with the given parameters (70_reset_and_hazards.md R260): every component at its value of 10_state.md R41. The font
and the zeros of memory are what unlisted addresses read as. -/
def State.init (p : Params) : State where
  v := Vector.replicate 16 0
  i := 0
  pc := pcReset
  sp := 16
  stack := Vector.replicate 16 0
  dt := 0
  st := 0
  key := Vector.replicate 16 false
  ext := false
  uflag := Vector.replicate 8 0
  mem := []
  fb := []
  draw := false
  status := .running
  params := p
  rngCount := 0

/-- The machine right after `init()` with the default parameters. -/
def State.reset : State := State.init Params.default

end Sys2Proof.Machine
end

