-- ==== Sys2Proof/Machine/Ops.lean ====
section
/-! DEFINITION. The named operations over memory, framebuffer and registers, one update for each field of the state, and the ways a
step ends: the fault (raised here once, for every illegal opcode) and the refusals. The core has no trap entry, no saved state and no
return from a fault (60_exceptions.md R223, R229): raising `UnknownOpcode` is the whole of taking its one exception. -/

namespace Sys2Proof.Machine

/-- What a step of this machine answers. -/
abbrev Result := Host.Outcome State Fault Refusal

/-! ### Memory (20_memory.md R50, R53)

`base` is what an unlisted address reads as. -/

/-- The byte at an address. -/
def Memory.read (base : Nat → Byte) : Memory → Nat → Byte
  | [], a => base a
  | (k, b) :: m, a => if k = a then b else Memory.read base m a

/-- List a byte at an address, keeping the addresses rising. -/
def Memory.insert : Memory → Nat → Byte → Memory
  | [], a, b => [(a, b)]
  | (k, c) :: m, a, b =>
    if a < k then (a, b) :: (k, c) :: m
    else if k = a then (a, b) :: m
    else (k, c) :: Memory.insert m a b

/-- Take an address off the list. -/
def Memory.erase (m : Memory) (a : Nat) : Memory := m.filter fun cell => cell.1 != a

/-- Store a byte, keeping the canonical form: a byte equal to what the unlisted address reads as is not listed. -/
def Memory.write (base : Nat → Byte) (m : Memory) (a : Nat) (b : Byte) : Memory :=
  if b = base a then Memory.erase m a else Memory.insert m a b

/-- Store bytes at consecutive addresses, one byte access each, the first at `a` (20_memory.md R53). -/
def Memory.writeList (base : Nat → Byte) (m : Memory) (a : Nat) : List Byte → Memory
  | [] => m
  | b :: bs => Memory.writeList base (Memory.write base m a b) (a + 1) bs

/-- The canonical form: addresses strictly rising, inside the address space, and no entry equal to what it would read as
unlisted. -/
def Memory.wf (base : Nat → Byte) (m : Memory) : Bool :=
  decide (m.Pairwise fun p q => p.1 < q.1) && m.all fun cell => decide (cell.1 < memSize) && cell.2 != base cell.1

/-! ### Framebuffer (10_state.md R34, R35) -/

/-- The cell is on. -/
def Framebuffer.lit (fb : Framebuffer) (c : Nat) : Bool := fb.contains c

/-- The value a cell holds, 0 or 255 (10_state.md R34). -/
def Framebuffer.cell (fb : Framebuffer) (c : Nat) : Byte := if Framebuffer.lit fb c then 255 else 0

/-- Turn an on cell off and an off cell on (40_display.md R107). -/
def Framebuffer.flip : Framebuffer → Nat → Framebuffer
  | [], c => [c]
  | k :: fb, c => if c < k then c :: k :: fb else if k = c then fb else k :: Framebuffer.flip fb c

/-- The canonical form: indices strictly rising and below 8192. -/
def Framebuffer.wf (fb : Framebuffer) : Bool :=
  decide (fb.Pairwise fun c k => c < k) && fb.all fun c => decide (c < fbCells)

/-- Active dimensions, in pixels (10_state.md R33). -/
structure Dims where
  w : Nat
  h : Nat
  deriving DecidableEq, Repr

/-- The cell of the pixel at column `x` and row `y` (10_state.md R35). -/
def Dims.cellOf (d : Dims) (x y : Nat) : Nat := y * d.w + x

/-- Move every lit pixel of the active area to where `move` sends its column and row, or lose it; cells outside the active area
stay (40_display.md R101 to R103). -/
def Framebuffer.shift (d : Dims) (move : Nat → Nat → Option (Nat × Nat)) (fb : Framebuffer) : Framebuffer :=
  fb.filterMap fun c =>
    if c < d.w * d.h then (move (c % d.w) (c / d.w)).map fun q => d.cellOf q.1 q.2 else some c

/-- Rows move down by `n`, vacated rows are off (40_display.md R101). -/
def Framebuffer.scrollDown (d : Dims) (n : Nat) : Framebuffer → Framebuffer :=
  Framebuffer.shift d fun x y => if y + n < d.h then some (x, y + n) else none

/-- Columns move right by `k`, each row on its own (40_display.md R102). -/
def Framebuffer.scrollRight (d : Dims) (k : Nat) : Framebuffer → Framebuffer :=
  Framebuffer.shift d fun x y => if x + k < d.w then some (x + k, y) else none

/-- Columns move left by `k`, each row on its own (40_display.md R103). -/
def Framebuffer.scrollLeft (d : Dims) (k : Nat) : Framebuffer → Framebuffer :=
  Framebuffer.shift d fun x y => if k ≤ x then some (x - k, y) else none

/-- Apply the pixel operation of 40_display.md R107 to each cell of a list: the picture after, and whether a cell that was on was
met. -/
def drawCells : Framebuffer → List Nat → Framebuffer × Bool
  | fb, [] => (fb, false)
  | fb, c :: cs =>
    let rest := drawCells (Framebuffer.flip fb c) cs
    (rest.1, Framebuffer.lit fb c || rest.2)

/-! ### Arrays -/

/-- Write the entries of a list into an array from index `j` on, as a loop would. -/
def writeFrom {α : Type} {n : Nat} (xs : Vector α n) (j : Nat) : List α → Vector α n
  | [] => xs
  | b :: bs => writeFrom (xs.setIfInBounds j b) (j + 1) bs

/-! ### One update for each field -/

def State.setV (s : State) (v : Vector Byte 16) : State := { s with v := v }
def State.setI (s : State) (w : Word) : State := { s with i := w }
def State.setPc (s : State) (w : Word) : State := { s with pc := w }
def State.setSp (s : State) (n : Fin 17) : State := { s with sp := n }
def State.setStack (s : State) (k : Vector Word 16) : State := { s with stack := k }
def State.setDt (s : State) (b : Byte) : State := { s with dt := b }
def State.setSt (s : State) (b : Byte) : State := { s with st := b }
def State.setKey (s : State) (k : Vector Bool 16) : State := { s with key := k }
def State.setExt (s : State) (b : Bool) : State := { s with ext := b }
def State.setUflag (s : State) (u : Vector Byte 8) : State := { s with uflag := u }
def State.setMem (s : State) (m : Memory) : State := { s with mem := m }
def State.setFb (s : State) (fb : Framebuffer) : State := { s with fb := fb }
def State.setDraw (s : State) (b : Bool) : State := { s with draw := b }
def State.setStatus (s : State) (t : Status) : State := { s with status := t }
def State.setRngCount (s : State) (n : Nat) : State := { s with rngCount := n }

/-! ### Registers, memory and stack of a state (00_scope.md R12, R13) -/

/-- `V[x]`. -/
def State.reg (s : State) (x : Reg) : Byte := s.v[x]

/-- `V[x] <- b`. -/
def State.setReg (s : State) (x : Reg) (b : Byte) : State := s.setV (s.v.set x b)

/-- The index of VF. -/
def vf : Reg := 0xF

/-- `V[0xF] <- b`: a flag write (10_state.md R22). -/
def State.setVF (s : State) (b : Byte) : State := s.setReg vf b

/-- `MemRead(a, 1)`, for `a <= 0xFFF` (00_scope.md R13). -/
def State.readByte (s : State) (a : Nat) : Byte := Memory.read s.params.resetByte s.mem a

/-- The `n` bytes from `a` on, each its own byte access (20_memory.md R53). -/
def State.readBytes (s : State) (a n : Nat) : List Byte := (List.range n).map fun j => s.readByte (a + j)

/-- `MemWrite` of consecutive bytes from `a` on, for addresses up to 0xFFF (00_scope.md R13). -/
def State.writeBytes (s : State) (a : Nat) (bs : List Byte) : State :=
  s.setMem (Memory.writeList s.params.resetByte s.mem a bs)

/-- `PC <- pc0 + 2`: the default of 30_encoding.md R84. -/
def State.advance (s : State) : State := s.setPc (s.pc + 2)

/-- `PC <- cond ? pc0 + 4 : pc0 + 2`: a skip is over exactly one opcode (30_encoding.md R84). -/
def State.skipIf (s : State) (cond : Bool) : State := s.setPc (if cond then s.pc + 4 else s.pc + 2)

/-- `draw_byte()`: the next answer of the `RNG` oracle, and the state that has asked (42_alu.md R154; log 25). -/
def State.drawByte (s : State) : Byte × State := (Config.rng s.rngCount, s.setRngCount (s.rngCount + 1))

/-! ### Ways a step ends -/

/-- `refuse <Reason>` (00_scope.md R14). -/
def refuse (r : Refusal) : Result := .refused r

/-- `raise UnknownOpcode(pc0, op)`: the one exception, terminal, taken before any effect (60_exceptions.md R221, R222). -/
def raiseUnknownOpcode (s : State) (op : Word) : Result := .fault (.unknownOpcode s.pc op)

/-- Refuse if the last address touched lies above 0xFFF; the check comes before any write (20_memory.md R54). -/
def guardMem (last : Nat) (answer : Result) : Result :=
  if last > 0xFFF then refuse .memOutOfRange else answer

/-- The status a fault or a refusal leaves (10_state.md R38). -/
def statusOfFault : Fault → Status
  | .unknownOpcode pc0 op => .faulted pc0 op

/-- The state after a step that answered `o` (60_exceptions.md R220, R227): the next state, or the state before with only `status`
changed. -/
def State.after (s : State) : Result → State
  | .next t => t
  | .fault f => s.setStatus (statusOfFault f)
  | .refused r => s.setStatus (.refused r)

end Sys2Proof.Machine
end

