-- ==== Sys2Proof/Machine/Operands.lean ====
section
/-! DEFINITION. What an instruction takes from its operands and from the mode: the source of a shift, the active dimensions, the
scroll distance, the sprite shape and its cells, the key tested, the glyph addresses, the decimal digits and the increment of `I`. -/

namespace Sys2Proof.Machine

/-- `zext_16(NNN)` (30_encoding.md R72). -/
def target (nnn : Addr12) : Word := nnn.setWidth 16

/-- `(SHIFT_SRC = vx) ? V[X] : V[Y]`: the operand of `8XY6` and `8XYE` (42_alu.md R150, R152). -/
def State.shiftOperand (s : State) (x y : Reg) : Byte :=
  match s.params.shiftSrc with
  | .vx => s.reg x
  | .vy => s.reg y

/-- The active dimensions (10_state.md R33). -/
def State.dims (s : State) : Dims := if s.ext then ⟨128, 64⟩ else ⟨64, 32⟩

/-- The distance of a horizontal scroll (40_display.md R102). -/
def State.hscroll (s : State) : Nat := if s.ext then 4 else s.params.hscrollStd

/-- The shape of a sprite: rows, width in pixels and bytes per row (40_display.md R106). -/
structure SpriteShape where
  rows : Nat
  width : Nat
  bpr : Nat
  deriving DecidableEq, Repr

/-- `shape(N, ext)` (40_display.md R106). -/
def spriteShape (n : Nibble) (ext : Bool) : SpriteShape :=
  if n = 0 then (if ext then ⟨16, 16, 2⟩ else ⟨16, 8, 1⟩) else ⟨n.toNat, 8, 1⟩

/-- How many bytes a sprite takes. -/
def SpriteShape.bytes (sh : SpriteShape) : Nat := sh.rows * sh.bpr

/-- `bit(r, c)` of the sprite at `I`: bit 7 of a byte is its leftmost pixel (40_display.md R106). -/
def State.spriteBit (s : State) (sh : SpriteShape) (r c : Nat) : Bool :=
  (s.readByte (s.i.toNat + r * sh.bpr + c / 8)).getLsbD (7 - c % 8)

/-- The cell that bit `(r, c)` of a sprite at `(x0, y0)` falls on, wrapped on both axes (40_display.md R107). -/
def spriteCell (d : Dims) (x0 y0 r c : Nat) : Nat := d.cellOf ((x0 + c) % d.w) ((y0 + r) % d.h)

/-- The cells the set bits of a sprite fall on, row by row (40_display.md R107, R109). -/
def State.spriteCells (s : State) (sh : SpriteShape) (x0 y0 : Nat) : List Nat :=
  (List.range sh.rows).flatMap fun r =>
    ((List.range sh.width).filter fun c => s.spriteBit sh r c).map fun c => spriteCell s.dims x0 y0 r c

/-- The key numbered `k` is down (44_keypad_timers.md R200). -/
def State.keyDown (s : State) (k : Nat) : Bool := s.key.toList.getD k false

/-- `min { k | key[k] }`, if a key is down (44_keypad_timers.md R206). -/
def State.lowestKey (s : State) : Option Nat := (List.range 16).find? fun k => s.keyDown k

/-- The address of the low-resolution glyph of a digit (43_index_memory.md R172). -/
def glyphLo (d : Byte) : Word := BitVec.ofNat 16 (fontLoBase + 5 * d.toNat)

/-- The address of the high-resolution glyph of a digit (43_index_memory.md R173). -/
def glyphHi (d : Byte) : Word := BitVec.ofNat 16 (fontHiBase + 10 * d.toNat)

/-- Hundreds, tens and ones (43_index_memory.md R174). -/
def bcdDigits (b : Byte) : List Byte :=
  [BitVec.ofNat 8 (b.toNat / 100), BitVec.ofNat 8 (b.toNat / 10 % 10), BitVec.ofNat 8 (b.toNat % 10)]

/-- `inc(X)`, what `FX55` and `FX65` add to `I` (43_index_memory.md R179). -/
def State.indexInc (s : State) (x : Reg) : Nat :=
  if s.ext then 0 else
  match s.params.lsIncStd with
  | .xPlus1 => x.val + 1
  | .x => x.val
  | .none => 0

/-- `I <- I + inc(X)` (43_index_memory.md R179). -/
def State.bumpI (s : State) (x : Reg) : State := s.setI (BitVec.ofNat 16 (s.i.toNat + s.indexInc x))

/-- `V[0]` to `V[X]`, in order. -/
def State.regsTo (s : State) (x : Reg) : List Byte := s.v.toList.take (x.val + 1)

end Sys2Proof.Machine
end

