-- ==== Sys2Proof/Machine/Flags.lean ====
section
/-! DEFINITION. Every flag VF takes (10_state.md R22): carry, no borrow, the bit a shift puts out, the overflow of `FX1E` and the
collision of `DXYN`, each as 0 or 1; and the order in which a result and a flag are written. -/

namespace Sys2Proof.Machine

/-- A condition as the value VF takes. -/
def flagByte (b : Bool) : Byte := if b then 1 else 0

/-- Carry out of bit 7 of an addition (42_alu.md R148). -/
def carryOut (a b : Byte) : Bool := decide (a.toNat + b.toNat > 255)

/-- No borrow in `a - b`: the subtrahend is not greater than the minuend (42_alu.md R140). -/
def noBorrow (a b : Byte) : Bool := decide (a.toNat ≥ b.toNat)

/-- The bit a right shift puts out, bit 0 (42_alu.md R150). -/
def shiftedOutRight (b : Byte) : Bool := b.getLsbD 0

/-- The bit a left shift puts out, bit 7 (42_alu.md R152). -/
def shiftedOutLeft (b : Byte) : Bool := b.getLsbD 7

/-- The overflow `FX1E` reports of the exact sum (43_index_memory.md R171). -/
def indexOverflow (p : Params) (sum : Nat) : Bool :=
  match p.fx1eFlag with
  | .carry16 => decide (sum > 0xFFFF)
  | .aboveFff => decide (sum > 0x0FFF)

/-- The result is written first and VF after it, so VF ends as the flag when X is 0xF (42_alu.md R141). -/
def State.writeResult (s : State) (x : Reg) (result : Byte) (flag : Bool) : State :=
  (s.setReg x result).setVF (flagByte flag)

/-- The redraw flag after a draw (40_display.md R108): set unless `NO_OVERDRAW` is configured and nothing collided. -/
def State.drawFlagAfter (s : State) (coll : Bool) : Bool := s.draw || !(s.params.noOverdraw && !coll)

end Sys2Proof.Machine
end

