-- ==== Sys2Proof/Machine/Alu.lean ====
section
/-! DEFINITION. Immediate loads, register arithmetic and logic, and the random instruction: `6XNN`, `7XNN`, `8XY0` to `8XY7`,
`8XYE` and `CXNN` (42_alu.md). All 8-bit arithmetic wraps modulo 256 (R140). -/

namespace Sys2Proof.Machine

/-- `6XNN` (42_alu.md R142). -/
def execLdImm (x : Reg) (nn : Byte) (s : State) : Result := .next (s.setReg x nn).advance

/-- `7XNN` (42_alu.md R143): no flag. -/
def execAddImm (x : Reg) (nn : Byte) (s : State) : Result := .next (s.setReg x (s.reg x + nn)).advance

/-- `8XY0` (42_alu.md R144). -/
def execLdReg (x y : Reg) (s : State) : Result := .next (s.setReg x (s.reg y)).advance

/-- `8XY1` (42_alu.md R145). -/
def execOrReg (x y : Reg) (s : State) : Result := .next (s.setReg x (s.reg x ||| s.reg y)).advance

/-- `8XY2` (42_alu.md R146). -/
def execAndReg (x y : Reg) (s : State) : Result := .next (s.setReg x (s.reg x &&& s.reg y)).advance

/-- `8XY3` (42_alu.md R147). -/
def execXorReg (x y : Reg) (s : State) : Result := .next (s.setReg x (s.reg x ^^^ s.reg y)).advance

/-- `8XY4` (42_alu.md R148). -/
def execAddReg (x y : Reg) (s : State) : Result :=
  .next (s.writeResult x (s.reg x + s.reg y) (carryOut (s.reg x) (s.reg y))).advance

/-- `8XY5` (42_alu.md R149). -/
def execSubReg (x y : Reg) (s : State) : Result :=
  .next (s.writeResult x (s.reg x - s.reg y) (noBorrow (s.reg x) (s.reg y))).advance

/-- `8XY6` (42_alu.md R150). -/
def execShr (x y : Reg) (s : State) : Result :=
  .next (s.writeResult x (s.shiftOperand x y >>> 1) (shiftedOutRight (s.shiftOperand x y))).advance

/-- `8XY7` (42_alu.md R151). -/
def execSubn (x y : Reg) (s : State) : Result :=
  .next (s.writeResult x (s.reg y - s.reg x) (noBorrow (s.reg y) (s.reg x))).advance

/-- `8XYE` (42_alu.md R152). -/
def execShl (x y : Reg) (s : State) : Result :=
  .next (s.writeResult x (s.shiftOperand x y <<< 1) (shiftedOutLeft (s.shiftOperand x y))).advance

/-- `CXNN` (42_alu.md R153). -/
def execRnd (x : Reg) (nn : Byte) (s : State) : Result :=
  .next (s.drawByte.2.setReg x (s.drawByte.1 &&& nn)).advance

end Sys2Proof.Machine
end

