-- ==== Sys2Proof/Machine/ControlFlow.lean ====
section
/-! DEFINITION. Return, jumps, call and the register and immediate skips: `00EE`, `1NNN`, `2NNN`, `3XNN`, `4XNN`, `5XY0`, `9XY0`
and `BNNN` (41_control_flow.md). -/

namespace Sys2Proof.Machine

/-- `00EE` (41_control_flow.md R120). -/
def execRet (s : State) : Result :=
  if h : s.sp.val < 16 then .next ((s.setPc (s.stack[s.sp.val] + 2)).setSp ⟨s.sp.val + 1, by omega⟩)
  else refuse .stackUnderflow

/-- `1NNN` (41_control_flow.md R121). -/
def execJp (nnn : Addr12) (s : State) : Result := .next (s.setPc (target nnn))

/-- `2NNN` (41_control_flow.md R122): the entry pushed is the address of the call itself. -/
def execCall (nnn : Addr12) (s : State) : Result :=
  if h : 0 < s.sp.val then
    .next (((s.setSp ⟨s.sp.val - 1, by omega⟩).setStack (s.stack.set (s.sp.val - 1) s.pc)).setPc (target nnn))
  else refuse .stackOverflow

/-- `3XNN` (41_control_flow.md R123). -/
def execSeImm (x : Reg) (nn : Byte) (s : State) : Result := .next (s.skipIf (s.reg x == nn))

/-- `4XNN` (41_control_flow.md R124). -/
def execSneImm (x : Reg) (nn : Byte) (s : State) : Result := .next (s.skipIf (s.reg x != nn))

/-- `5XY0` (41_control_flow.md R125). -/
def execSeReg (x y : Reg) (s : State) : Result := .next (s.skipIf (s.reg x == s.reg y))

/-- `9XY0` (41_control_flow.md R126). -/
def execSneReg (x y : Reg) (s : State) : Result := .next (s.skipIf (s.reg x != s.reg y))

/-- `BNNN` (41_control_flow.md R127): the offset register is always V0, and the sum is kept whole. -/
def execJpV0 (nnn : Addr12) (s : State) : Result := .next (s.setPc (target nnn + (s.reg 0).setWidth 16))

end Sys2Proof.Machine
end

