-- ==== Sys2Proof/Machine/Display.lean ====
section
/-! DEFINITION. The display instructions: `00E0`, `00CN`, `00FB`, `00FC`, `00FE`, `00FF` and `DXYN` (40_display.md). -/

namespace Sys2Proof.Machine

/-- `00E0` (40_display.md R100). -/
def execCls (s : State) : Result := .next ((s.setFb []).setDraw true).advance

/-- `00CN` (40_display.md R101). -/
def execScd (n : Nibble) (s : State) : Result :=
  .next ((s.setFb (Framebuffer.scrollDown s.dims n.toNat s.fb)).setDraw true).advance

/-- `00FB` (40_display.md R102). -/
def execScr (s : State) : Result :=
  .next ((s.setFb (Framebuffer.scrollRight s.dims s.hscroll s.fb)).setDraw true).advance

/-- `00FC` (40_display.md R103). -/
def execScl (s : State) : Result :=
  .next ((s.setFb (Framebuffer.scrollLeft s.dims s.hscroll s.fb)).setDraw true).advance

/-- `00FE` (40_display.md R104). -/
def execLow (s : State) : Result := .next (s.setExt false).advance

/-- `00FF` (40_display.md R105). -/
def execHigh (s : State) : Result := .next (s.setExt true).advance

/-- `DXYN` (40_display.md R106 to R109): the coordinates are read before VF is written. -/
def execDrw (x y : Reg) (n : Nibble) (s : State) : Result :=
  let sh := spriteShape n s.ext
  let drawn := drawCells s.fb (s.spriteCells sh (s.reg x).toNat (s.reg y).toNat)
  guardMem (s.i.toNat + sh.bytes - 1)
    (.next (((s.setFb drawn.1).setVF (flagByte drawn.2)).setDraw (s.drawFlagAfter drawn.2)).advance)

end Sys2Proof.Machine
end

