-- ==== Sys2Proof/Machine/IndexMemory.lean ====
section
/-! DEFINITION. The instructions that set `I` or move bytes between the registers and memory or the user flags: `ANNN`, `FX1E`,
`FX29`, `FX30`, `FX33`, `FX55`, `FX65`, `FX75` and `FX85` (43_index_memory.md). -/

namespace Sys2Proof.Machine

/-- `ANNN` (43_index_memory.md R170). -/
def execLdI (nnn : Addr12) (s : State) : Result := .next (s.setI (target nnn)).advance

/-- `FX1E` (43_index_memory.md R171): the old VF is added when X is 0xF, and VF is written last. -/
def execAddI (x : Reg) (s : State) : Result :=
  let sum := s.i.toNat + (s.reg x).toNat
  .next ((s.setI (BitVec.ofNat 16 sum)).setVF (flagByte (indexOverflow s.params sum))).advance

/-- `FX29` (43_index_memory.md R172). -/
def execLdF (x : Reg) (s : State) : Result := .next (s.setI (glyphLo (s.reg x))).advance

/-- `FX30` (43_index_memory.md R173). -/
def execLdHf (x : Reg) (s : State) : Result := .next (s.setI (glyphHi (s.reg x))).advance

/-- `FX33` (43_index_memory.md R174). -/
def execLdB (x : Reg) (s : State) : Result :=
  guardMem (s.i.toNat + 2) (.next (s.writeBytes s.i.toNat (bcdDigits (s.reg x))).advance)

/-- `FX55` (43_index_memory.md R175). -/
def execStRegs (x : Reg) (s : State) : Result :=
  guardMem (s.i.toNat + x.val) (.next ((s.writeBytes s.i.toNat (s.regsTo x)).bumpI x).advance)

/-- `FX65` (43_index_memory.md R176). -/
def execLdRegs (x : Reg) (s : State) : Result :=
  guardMem (s.i.toNat + x.val)
    (.next ((s.setV (writeFrom s.v 0 (s.readBytes s.i.toNat (x.val + 1)))).bumpI x).advance)

/-- `FX75` (43_index_memory.md R177). -/
def execStFlags (x : Reg) (s : State) : Result :=
  if x.val > 7 then refuse .userFlagIndexOutOfRange
  else .next (s.setUflag (writeFrom s.uflag 0 (s.regsTo x))).advance

/-- `FX85` (43_index_memory.md R178). -/
def execLdFlags (x : Reg) (s : State) : Result :=
  if x.val > 7 then refuse .userFlagIndexOutOfRange
  else .next (s.setV (writeFrom s.v 0 (s.uflag.toList.take (x.val + 1)))).advance

end Sys2Proof.Machine
end

