-- ==== Sys2Proof/Machine/KeypadTimers.lean ====
section
/-! DEFINITION. The instructions that read the keypad and read or write the timers: `EX9E`, `EXA1`, `FX07`, `FX0A`, `FX15` and
`FX18` (44_keypad_timers.md). -/

namespace Sys2Proof.Machine

/-- `EX9E` (44_keypad_timers.md R200, R201). -/
def execSkp (x : Reg) (s : State) : Result :=
  if (s.reg x).toNat > 15 then refuse .keyIndexOutOfRange
  else .next (s.skipIf (s.keyDown (s.reg x).toNat))

/-- `EXA1` (44_keypad_timers.md R200, R202). -/
def execSknp (x : Reg) (s : State) : Result :=
  if (s.reg x).toNat > 15 then refuse .keyIndexOutOfRange
  else .next (s.skipIf (!s.keyDown (s.reg x).toNat))

/-- `FX07` (44_keypad_timers.md R203). -/
def execLdVxDt (x : Reg) (s : State) : Result := .next (s.setReg x s.dt).advance

/-- `FX0A` (44_keypad_timers.md R206): a poll; with no key down nothing changes and the same opcode runs again. -/
def execLdVxK (x : Reg) (s : State) : Result :=
  match s.lowestKey with
  | some k => .next (s.setReg x (BitVec.ofNat 8 k)).advance
  | none => .next s

/-- `FX15` (44_keypad_timers.md R204). -/
def execLdDtVx (x : Reg) (s : State) : Result := .next (s.setDt (s.reg x)).advance

/-- `FX18` (44_keypad_timers.md R205). -/
def execLdStVx (x : Reg) (s : State) : Result := .next (s.setSt (s.reg x)).advance

end Sys2Proof.Machine
end

