-- ==== Sys2Proof/Syntax.lean ====
section
/-! DEFINITION. The 42 instructions, one constructor for each row of spec/opcode_table.json (00_scope.md R2, 30_encoding.md
R73), in the table's order. Operands are already fields of their own widths: `Reg` for X and Y, `Nibble` for N, `Byte` for NN
and `Addr12` for NNN (30_encoding.md R72). -/

namespace Sys2Proof

/-- The instructions of the core. The mnemonics are those of 30_encoding.md R81, the hex patterns those of R76. -/
inductive Instr where
  /-- `00E0` CLS -/
  | cls
  /-- `00EE` RET -/
  | ret
  /-- `00CN` SCD N -/
  | scd (n : Nibble)
  /-- `00FB` SCR -/
  | scr
  /-- `00FC` SCL -/
  | scl
  /-- `00FE` LOW -/
  | low
  /-- `00FF` HIGH -/
  | high
  /-- `1NNN` JP NNN -/
  | jp (nnn : Addr12)
  /-- `2NNN` CALL NNN -/
  | call (nnn : Addr12)
  /-- `3XNN` SE Vx, NN -/
  | seImm (x : Reg) (nn : Byte)
  /-- `4XNN` SNE Vx, NN -/
  | sneImm (x : Reg) (nn : Byte)
  /-- `5XY0` SE Vx, Vy -/
  | seReg (x y : Reg)
  /-- `6XNN` LD Vx, NN -/
  | ldImm (x : Reg) (nn : Byte)
  /-- `7XNN` ADD Vx, NN -/
  | addImm (x : Reg) (nn : Byte)
  /-- `8XY0` LD Vx, Vy -/
  | ldReg (x y : Reg)
  /-- `8XY1` OR Vx, Vy -/
  | orReg (x y : Reg)
  /-- `8XY2` AND Vx, Vy -/
  | andReg (x y : Reg)
  /-- `8XY3` XOR Vx, Vy -/
  | xorReg (x y : Reg)
  /-- `8XY4` ADD Vx, Vy -/
  | addReg (x y : Reg)
  /-- `8XY5` SUB Vx, Vy -/
  | subReg (x y : Reg)
  /-- `8XY6` SHR Vx (, Vy) -/
  | shr (x y : Reg)
  /-- `8XY7` SUBN Vx, Vy -/
  | subn (x y : Reg)
  /-- `8XYE` SHL Vx (, Vy) -/
  | shl (x y : Reg)
  /-- `9XY0` SNE Vx, Vy -/
  | sneReg (x y : Reg)
  /-- `ANNN` LD I, NNN -/
  | ldI (nnn : Addr12)
  /-- `BNNN` JP V0, NNN -/
  | jpV0 (nnn : Addr12)
  /-- `CXNN` RND Vx, NN -/
  | rnd (x : Reg) (nn : Byte)
  /-- `DXYN` DRW Vx, Vy, N -/
  | drw (x y : Reg) (n : Nibble)
  /-- `EX9E` SKP Vx -/
  | skp (x : Reg)
  /-- `EXA1` SKNP Vx -/
  | sknp (x : Reg)
  /-- `FX07` LD Vx, DT -/
  | ldVxDt (x : Reg)
  /-- `FX0A` LD Vx, K -/
  | ldVxK (x : Reg)
  /-- `FX15` LD DT, Vx -/
  | ldDtVx (x : Reg)
  /-- `FX18` LD ST, Vx -/
  | ldStVx (x : Reg)
  /-- `FX1E` ADD I, Vx -/
  | addI (x : Reg)
  /-- `FX29` LD F, Vx -/
  | ldF (x : Reg)
  /-- `FX30` LD HF, Vx -/
  | ldHf (x : Reg)
  /-- `FX33` LD B, Vx -/
  | ldB (x : Reg)
  /-- `FX55` LD [I], Vx -/
  | stRegs (x : Reg)
  /-- `FX65` LD Vx, [I] -/
  | ldRegs (x : Reg)
  /-- `FX75` LD R, Vx -/
  | stFlags (x : Reg)
  /-- `FX85` LD Vx, R -/
  | ldFlags (x : Reg)
  deriving DecidableEq, Repr

end Sys2Proof
end

