-- ==== Sys2Proof/WellFormed.lean ====
section
/-! DEFINITION. What a well-formed instruction and a legal opcode are. The operand types of `Instr` already keep every operand
inside its field, so the check on instructions is there to be read (and is refused by the ill-formed fields of the tests); the
check on opcodes is the match/mask table of 30_encoding.md R76, from which R78 and R79 take what is illegal. -/

namespace Sys2Proof

/-- An operand as a number with the width of the field it stands in (30_encoding.md R72). -/
structure Field where
  value : Nat
  width : Nat
  deriving DecidableEq, Repr

/-- The number fits its field. -/
def Field.fits (f : Field) : Bool := f.value < 2 ^ f.width

/-- A field that names a register, X or Y (4 bits). -/
def Field.ofReg (x : Reg) : Field := ⟨x.val, 4⟩

/-- The operand fields of an instruction, highest first (30_encoding.md R72, R73). -/
def Instr.fields : Instr → List Field
  | .cls | .ret | .scr | .scl | .low | .high => []
  | .scd n => [⟨n.toNat, 4⟩]
  | .jp nnn | .call nnn | .ldI nnn | .jpV0 nnn => [⟨nnn.toNat, 12⟩]
  | .seImm x nn | .sneImm x nn | .ldImm x nn | .addImm x nn | .rnd x nn => [.ofReg x, ⟨nn.toNat, 8⟩]
  | .seReg x y | .sneReg x y | .ldReg x y | .orReg x y | .andReg x y | .xorReg x y => [.ofReg x, .ofReg y]
  | .addReg x y | .subReg x y | .shr x y | .subn x y | .shl x y => [.ofReg x, .ofReg y]
  | .drw x y n => [.ofReg x, .ofReg y, ⟨n.toNat, 4⟩]
  | .skp x | .sknp x | .ldVxDt x | .ldVxK x | .ldDtVx x | .ldStVx x => [.ofReg x]
  | .addI x | .ldF x | .ldHf x | .ldB x | .stRegs x | .ldRegs x | .stFlags x | .ldFlags x => [.ofReg x]

/-- Every operand fits its field. -/
def Instr.wellFormed (i : Instr) : Bool := i.fields.all Field.fits

/-- One row of the table of 30_encoding.md R76: an opcode selects the row when `op & mask = pattern`. -/
structure OpcodeRow where
  pattern : Word
  mask : Word
  deriving DecidableEq, Repr

/-- The opcode selects the row. -/
def OpcodeRow.selects (r : OpcodeRow) (op : Word) : Bool := op &&& r.mask == r.pattern

/-- The row of 30_encoding.md R76 that stands for the instruction. -/
def Instr.row : Instr → OpcodeRow
  | .cls => ⟨0x00E0, 0xFFFF⟩
  | .ret => ⟨0x00EE, 0xFFFF⟩
  | .scd _ => ⟨0x00C0, 0xFFF0⟩
  | .scr => ⟨0x00FB, 0xFFFF⟩
  | .scl => ⟨0x00FC, 0xFFFF⟩
  | .low => ⟨0x00FE, 0xFFFF⟩
  | .high => ⟨0x00FF, 0xFFFF⟩
  | .jp _ => ⟨0x1000, 0xF000⟩
  | .call _ => ⟨0x2000, 0xF000⟩
  | .seImm _ _ => ⟨0x3000, 0xF000⟩
  | .sneImm _ _ => ⟨0x4000, 0xF000⟩
  | .seReg _ _ => ⟨0x5000, 0xF00F⟩
  | .ldImm _ _ => ⟨0x6000, 0xF000⟩
  | .addImm _ _ => ⟨0x7000, 0xF000⟩
  | .ldReg _ _ => ⟨0x8000, 0xF00F⟩
  | .orReg _ _ => ⟨0x8001, 0xF00F⟩
  | .andReg _ _ => ⟨0x8002, 0xF00F⟩
  | .xorReg _ _ => ⟨0x8003, 0xF00F⟩
  | .addReg _ _ => ⟨0x8004, 0xF00F⟩
  | .subReg _ _ => ⟨0x8005, 0xF00F⟩
  | .shr _ _ => ⟨0x8006, 0xF00F⟩
  | .subn _ _ => ⟨0x8007, 0xF00F⟩
  | .shl _ _ => ⟨0x800E, 0xF00F⟩
  | .sneReg _ _ => ⟨0x9000, 0xF00F⟩
  | .ldI _ => ⟨0xA000, 0xF000⟩
  | .jpV0 _ => ⟨0xB000, 0xF000⟩
  | .rnd _ _ => ⟨0xC000, 0xF000⟩
  | .drw _ _ _ => ⟨0xD000, 0xF000⟩
  | .skp _ => ⟨0xE09E, 0xF0FF⟩
  | .sknp _ => ⟨0xE0A1, 0xF0FF⟩
  | .ldVxDt _ => ⟨0xF007, 0xF0FF⟩
  | .ldVxK _ => ⟨0xF00A, 0xF0FF⟩
  | .ldDtVx _ => ⟨0xF015, 0xF0FF⟩
  | .ldStVx _ => ⟨0xF018, 0xF0FF⟩
  | .addI _ => ⟨0xF01E, 0xF0FF⟩
  | .ldF _ => ⟨0xF029, 0xF0FF⟩
  | .ldHf _ => ⟨0xF030, 0xF0FF⟩
  | .ldB _ => ⟨0xF033, 0xF0FF⟩
  | .stRegs _ => ⟨0xF055, 0xF0FF⟩
  | .ldRegs _ => ⟨0xF065, 0xF0FF⟩
  | .stFlags _ => ⟨0xF075, 0xF0FF⟩
  | .ldFlags _ => ⟨0xF085, 0xF0FF⟩

/-- The 42 rows of 30_encoding.md R76, down its left and then its right column. -/
def opcodeTable : List OpcodeRow :=
  [⟨0x00E0, 0xFFFF⟩, ⟨0x00EE, 0xFFFF⟩, ⟨0x00C0, 0xFFF0⟩, ⟨0x00FB, 0xFFFF⟩, ⟨0x00FC, 0xFFFF⟩, ⟨0x00FE, 0xFFFF⟩,
   ⟨0x00FF, 0xFFFF⟩, ⟨0x1000, 0xF000⟩, ⟨0x2000, 0xF000⟩, ⟨0x3000, 0xF000⟩, ⟨0x4000, 0xF000⟩] ++
  [⟨0x5000, 0xF00F⟩, ⟨0x6000, 0xF000⟩, ⟨0x7000, 0xF000⟩, ⟨0x8000, 0xF00F⟩, ⟨0x8001, 0xF00F⟩, ⟨0x8002, 0xF00F⟩,
   ⟨0x8003, 0xF00F⟩, ⟨0x8004, 0xF00F⟩, ⟨0x8005, 0xF00F⟩, ⟨0x8006, 0xF00F⟩] ++
  [⟨0x8007, 0xF00F⟩, ⟨0x800E, 0xF00F⟩, ⟨0x9000, 0xF00F⟩, ⟨0xA000, 0xF000⟩, ⟨0xB000, 0xF000⟩, ⟨0xC000, 0xF000⟩,
   ⟨0xD000, 0xF000⟩, ⟨0xE09E, 0xF0FF⟩, ⟨0xE0A1, 0xF0FF⟩, ⟨0xF007, 0xF0FF⟩, ⟨0xF00A, 0xF0FF⟩] ++
  [⟨0xF015, 0xF0FF⟩, ⟨0xF018, 0xF0FF⟩, ⟨0xF01E, 0xF0FF⟩, ⟨0xF029, 0xF0FF⟩, ⟨0xF030, 0xF0FF⟩, ⟨0xF033, 0xF0FF⟩,
   ⟨0xF055, 0xF0FF⟩, ⟨0xF065, 0xF0FF⟩, ⟨0xF075, 0xF0FF⟩, ⟨0xF085, 0xF0FF⟩]

/-- The opcode selects some row of the table (30_encoding.md R76); one that selects none is illegal (R78). -/
def legalOpcode (op : Word) : Bool := opcodeTable.any (·.selects op)

end Sys2Proof
end

