-- ==== Sys2Proof/Decode.lean ====
section
/-! DEFINITION. The fields of an opcode, the decoder (nibble dispatch of 30_encoding.md R74 and R75, rejecting by name) and the
encoder, written from the formats of 30_encoding.md R73. Decoding does not depend on the mode flag (R80). -/

namespace Sys2Proof

/-- `n1`, bits 15 to 12: the primary opcode (30_encoding.md R72). -/
def fieldN1 (op : Word) : Nibble := op.extractLsb' 12 4

/-- `X`, bits 11 to 8: the index of Vx (30_encoding.md R72). -/
def fieldX (op : Word) : Reg := (op.extractLsb' 8 4).toFin

/-- `Y`, bits 7 to 4: the index of Vy (30_encoding.md R72). -/
def fieldY (op : Word) : Reg := (op.extractLsb' 4 4).toFin

/-- `N`, bits 3 to 0 (30_encoding.md R72). -/
def fieldN (op : Word) : Nibble := op.extractLsb' 0 4

/-- `NN`, bits 7 to 0 (30_encoding.md R72). -/
def fieldNN (op : Word) : Byte := op.extractLsb' 0 8

/-- `NNN`, bits 11 to 0 (30_encoding.md R72). -/
def fieldNNN (op : Word) : Addr12 := op.extractLsb' 0 12

/-- The opcode of two consecutive bytes, the byte at the lower address the high one (20_memory.md R52). -/
def opcodeOfBytes (lower upper : Byte) : Word := lower ++ upper

/-- The two bytes of an opcode in address order (20_memory.md R52). -/
def bytesOfOpcode (op : Word) : List Byte := [op.extractLsb' 8 8, op.extractLsb' 0 8]

/-- Why a decode fails. -/
inductive DecodeError where
  /-- Fewer than two bytes were given (30_encoding.md R71). -/
  | truncated
  /-- The opcode matches no row of 30_encoding.md R76 (R78). -/
  | unknownOpcode (op : Word)
  deriving DecidableEq, Repr

/-- `0___`: the low byte selects, and `00CN` holds its row count in the low nibble (30_encoding.md R74, R77). -/
def decodeSystem (op : Word) : Except DecodeError Instr :=
  if op.extractLsb' 8 8 = 0x00#8 then
    if op.extractLsb' 4 4 = 0xC#4 then .ok (.scd (fieldN op)) else
    match fieldNN op with
    | 0xE0#8 => .ok .cls
    | 0xEE#8 => .ok .ret
    | 0xFB#8 => .ok .scr
    | 0xFC#8 => .ok .scl
    | 0xFE#8 => .ok .low
    | 0xFF#8 => .ok .high
    | _ => .error (.unknownOpcode op)
  else .error (.unknownOpcode op)

/-- `8XY_`: the low nibble selects the operation (30_encoding.md R74, R77). -/
def decodeAlu (op : Word) : Except DecodeError Instr :=
  match fieldN op with
  | 0x0#4 => .ok (.ldReg (fieldX op) (fieldY op))
  | 0x1#4 => .ok (.orReg (fieldX op) (fieldY op))
  | 0x2#4 => .ok (.andReg (fieldX op) (fieldY op))
  | 0x3#4 => .ok (.xorReg (fieldX op) (fieldY op))
  | 0x4#4 => .ok (.addReg (fieldX op) (fieldY op))
  | 0x5#4 => .ok (.subReg (fieldX op) (fieldY op))
  | 0x6#4 => .ok (.shr (fieldX op) (fieldY op))
  | 0x7#4 => .ok (.subn (fieldX op) (fieldY op))
  | 0xE#4 => .ok (.shl (fieldX op) (fieldY op))
  | _ => .error (.unknownOpcode op)

/-- `EX__`: the low byte selects (30_encoding.md R74). -/
def decodeKey (op : Word) : Except DecodeError Instr :=
  match fieldNN op with
  | 0x9E#8 => .ok (.skp (fieldX op))
  | 0xA1#8 => .ok (.sknp (fieldX op))
  | _ => .error (.unknownOpcode op)

/-- `FX__`: the low byte selects (30_encoding.md R74). -/
def decodeMisc (op : Word) : Except DecodeError Instr :=
  match fieldNN op with
  | 0x07#8 => .ok (.ldVxDt (fieldX op))
  | 0x0A#8 => .ok (.ldVxK (fieldX op))
  | 0x15#8 => .ok (.ldDtVx (fieldX op))
  | 0x18#8 => .ok (.ldStVx (fieldX op))
  | 0x1E#8 => .ok (.addI (fieldX op))
  | 0x29#8 => .ok (.ldF (fieldX op))
  | 0x30#8 => .ok (.ldHf (fieldX op))
  | 0x33#8 => .ok (.ldB (fieldX op))
  | 0x55#8 => .ok (.stRegs (fieldX op))
  | 0x65#8 => .ok (.ldRegs (fieldX op))
  | 0x75#8 => .ok (.stFlags (fieldX op))
  | 0x85#8 => .ok (.ldFlags (fieldX op))
  | _ => .error (.unknownOpcode op)

/-- Decode one opcode (30_encoding.md R74, R75): total on all 65536 opcodes, each either an instruction or rejected by name. -/
def decode (op : Word) : Except DecodeError Instr :=
  match fieldN1 op with
  | 0x0#4 => decodeSystem op
  | 0x1#4 => .ok (.jp (fieldNNN op))
  | 0x2#4 => .ok (.call (fieldNNN op))
  | 0x3#4 => .ok (.seImm (fieldX op) (fieldNN op))
  | 0x4#4 => .ok (.sneImm (fieldX op) (fieldNN op))
  | 0x5#4 => if fieldN op = 0x0#4 then .ok (.seReg (fieldX op) (fieldY op)) else .error (.unknownOpcode op)
  | 0x6#4 => .ok (.ldImm (fieldX op) (fieldNN op))
  | 0x7#4 => .ok (.addImm (fieldX op) (fieldNN op))
  | 0x8#4 => decodeAlu op
  | 0x9#4 => if fieldN op = 0x0#4 then .ok (.sneReg (fieldX op) (fieldY op)) else .error (.unknownOpcode op)
  | 0xA#4 => .ok (.ldI (fieldNNN op))
  | 0xB#4 => .ok (.jpV0 (fieldNNN op))
  | 0xC#4 => .ok (.rnd (fieldX op) (fieldNN op))
  | 0xD#4 => .ok (.drw (fieldX op) (fieldY op) (fieldN op))
  | 0xE#4 => decodeKey op
  | _ => decodeMisc op

/-- Decode the first instruction of a list of bytes and give the rest: two bytes are always consumed (30_encoding.md R71). -/
def decodeBytes : List Byte → Except DecodeError (Instr × List Byte)
  | lower :: upper :: rest => (decode (opcodeOfBytes lower upper)).map fun i => (i, rest)
  | _ => .error .truncated

/-- Format `oNNN` (30_encoding.md R73). -/
def packNNN (n1 : Nibble) (nnn : Addr12) : Word := n1 ++ nnn

/-- Format `oXNN`, and `oXss` with the sub-opcode for NN (30_encoding.md R73). -/
def packXNN (n1 : Nibble) (x : Reg) (nn : Byte) : Word := n1 ++ (BitVec.ofFin x : Nibble) ++ nn

/-- Format `oXYN`, and `oXYs` with the sub-opcode for N (30_encoding.md R73). -/
def packXYN (n1 : Nibble) (x y : Reg) (n : Nibble) : Word := n1 ++ (BitVec.ofFin x : Nibble) ++ (BitVec.ofFin y : Nibble) ++ n

/-- The opcode of an instruction (30_encoding.md R73, R76). -/
def encode : Instr → Word
  | .cls => 0x00E0
  | .ret => 0x00EE
  | .scd n => 0x00C#12 ++ n
  | .scr => 0x00FB
  | .scl => 0x00FC
  | .low => 0x00FE
  | .high => 0x00FF
  | .jp nnn => packNNN 0x1 nnn
  | .call nnn => packNNN 0x2 nnn
  | .seImm x nn => packXNN 0x3 x nn
  | .sneImm x nn => packXNN 0x4 x nn
  | .seReg x y => packXYN 0x5 x y 0x0
  | .ldImm x nn => packXNN 0x6 x nn
  | .addImm x nn => packXNN 0x7 x nn
  | .ldReg x y => packXYN 0x8 x y 0x0
  | .orReg x y => packXYN 0x8 x y 0x1
  | .andReg x y => packXYN 0x8 x y 0x2
  | .xorReg x y => packXYN 0x8 x y 0x3
  | .addReg x y => packXYN 0x8 x y 0x4
  | .subReg x y => packXYN 0x8 x y 0x5
  | .shr x y => packXYN 0x8 x y 0x6
  | .subn x y => packXYN 0x8 x y 0x7
  | .shl x y => packXYN 0x8 x y 0xE
  | .sneReg x y => packXYN 0x9 x y 0x0
  | .ldI nnn => packNNN 0xA nnn
  | .jpV0 nnn => packNNN 0xB nnn
  | .rnd x nn => packXNN 0xC x nn
  | .drw x y n => packXYN 0xD x y n
  | .skp x => packXNN 0xE x 0x9E
  | .sknp x => packXNN 0xE x 0xA1
  | .ldVxDt x => packXNN 0xF x 0x07
  | .ldVxK x => packXNN 0xF x 0x0A
  | .ldDtVx x => packXNN 0xF x 0x15
  | .ldStVx x => packXNN 0xF x 0x18
  | .addI x => packXNN 0xF x 0x1E
  | .ldF x => packXNN 0xF x 0x29
  | .ldHf x => packXNN 0xF x 0x30
  | .ldB x => packXNN 0xF x 0x33
  | .stRegs x => packXNN 0xF x 0x55
  | .ldRegs x => packXNN 0xF x 0x65
  | .stFlags x => packXNN 0xF x 0x75
  | .ldFlags x => packXNN 0xF x 0x85

/-- The instruction as it stands in memory, in address order (20_memory.md R52). -/
def encodeBytes (i : Instr) : List Byte := bytesOfOpcode (encode i)

/-- The instruction the decoder reads from an instruction whose bits are `w`, numbered as spec/opcode_table.json numbers them
(the one 16-bit opcode, bit 0 its least significant), every bit from `nbits` on zero. -/
def decodeTableWord (nbits w : Nat) : Option Instr :=
  match decodeBytes (bytesOfOpcode (BitVec.ofNat 16 (w % 2 ^ nbits))) with
  | .ok (i, _) => some i
  | .error _ => none

end Sys2Proof
end

