-- ==== Sys2Proof/Machine/Fetch.lean ====
section
/-! DEFINITION. Fetching the opcode at `PC` (30_encoding.md R70), and placing one there. -/

namespace Sys2Proof.Machine

/-- Fetch the big-endian opcode at `PC`, which needs two bytes below 0x1000 (30_encoding.md R70, 20_memory.md R52). It changes no
state. -/
def fetch (s : State) : Except Refusal Word :=
  if s.pc.toNat + 1 > 0xFFF then .error (.fetchOutOfRange s.pc)
  else .ok (opcodeOfBytes (s.readByte s.pc.toNat) (s.readByte (s.pc.toNat + 1)))

/-- The state with the opcode stored at `PC`, where the next fetch reads it (log 44). Where the fetch has no room for an opcode the
state stays as it is. -/
def State.placeOpcode (s : State) (op : Word) : State :=
  if s.pc.toNat + 1 > 0xFFF then s else s.writeBytes s.pc.toNat (bytesOfOpcode op)

end Sys2Proof.Machine
end

