-- ==== Sys2Proof/Machine/Step.lean ====
section
/-! DEFINITION. One step (30_encoding.md R83): status, fetch, decode, execute, in the order of 60_exceptions.md R226. -/

namespace Sys2Proof.Machine

/-- `step()`. A machine that has stopped has no further step (10_state.md R38): it answers its recorded fault or refusal again
(log 42). -/
def step (s : State) : Host.Outcome State Fault Refusal :=
  match s.status with
  | .faulted pc0 op => .fault (.unknownOpcode pc0 op)
  | .refused r => .refused r
  | .running =>
    match fetch s with
    | .error r => .refused r
    | .ok op =>
      match decode op with
      | .error _ => raiseUnknownOpcode s op
      | .ok i => exec i s

/-- The state with the opcode whose bits are `w` (numbered as spec/opcode_table.json numbers them, zero from bit `nbits` on) stored
at `PC`, so that the next step fetches and runs it. -/
def State.withFetchWord (s : State) (nbits w : Nat) : State := s.placeOpcode (BitVec.ofNat 16 (w % 2 ^ nbits))

end Sys2Proof.Machine
end

