-- ==== Sys2Proof/Machine/HostOps.lean ====
section
/-! DEFINITION. What the host can do to the core and what it can read (60_exceptions.md R231), each operation between two steps. -/

namespace Sys2Proof.Machine

/-- The state after one call of `step()`: as the instruction leaves it, or the state before with only `status` changed
(60_exceptions.md R220, R227). -/
def State.stepCall (s : State) : State := s.after (step s)

/-- One timer of `tick()`: down by one, floored at 0 (60_exceptions.md R232). -/
def countDown (b : Byte) : Byte := if b.toNat > 0 then b - 1 else b

/-- `tick()` (60_exceptions.md R232). -/
def State.tick (s : State) : State := (s.setDt (countDown s.dt)).setSt (countDown s.st)

/-- `update_key(k, p)` (60_exceptions.md R235): the index is one of 0 to 15 by its type. -/
def State.updateKey (s : State) (k : Fin 16) (pressed : Bool) : State := s.setKey (s.key.set k pressed)

/-- The host clears the redraw flag (60_exceptions.md R237). -/
def State.clearDraw (s : State) : State := s.setDraw false

/-- What `load_program` answers (70_reset_and_hazards.md R262, R263). -/
inductive LoadOutcome where
  /-- The image was copied. -/
  | ok (s : State)
  /-- The source could not be read: recoverable, nothing written. -/
  | loadError
  /-- The image does not fit. -/
  | refused (r : Refusal)
  deriving DecidableEq, Repr

/-- `load_program` (70_reset_and_hazards.md R262, R263): `none` is a source that cannot be read. -/
def State.loadProgram (s : State) (source : Option (List Byte)) : LoadOutcome :=
  match source with
  | none => .loadError
  | some bytes =>
    if bytes.length > programCapacity then .refused .imageTooLarge else .ok (s.writeBytes programBase bytes)

/-- The state after `load_program`. A refused load stops a running machine as every refusal does (60_exceptions.md R225, R227;
log 43); a fault or refusal that stands is not cleared. -/
def State.afterLoad (s : State) : LoadOutcome → State
  | .ok t => t
  | .loadError => s
  | .refused r => if s.status = .running then s.setStatus (.refused r) else s

/-- The host's operations that can change the core (60_exceptions.md R231). -/
inductive HostOp where
  | step
  | tick
  | updateKey (k : Fin 16) (pressed : Bool)
  | clearDraw
  | loadProgram (source : Option (List Byte))
  deriving DecidableEq, Repr

/-- The state after one host operation. -/
def HostOp.apply (s : State) : HostOp → State
  | .step => s.stepCall
  | .tick => s.tick
  | .updateKey k pressed => s.updateKey k pressed
  | .clearDraw => s.clearDraw
  | .loadProgram source => s.afterLoad (s.loadProgram source)

/-- The state after host operations in the order given: any interleaving is admitted (60_exceptions.md R241). -/
def State.hostRun (s : State) (ops : List HostOp) : State := ops.foldl HostOp.apply s

/-- Reading the framebuffer: the active dimensions and the value of every cell (60_exceptions.md R236). -/
def State.readFramebuffer (s : State) : Dims × List Byte := (s.dims, (List.range fbCells).map (Framebuffer.cell s.fb))

/-- The tone is on (60_exceptions.md R234). -/
def State.toneOn (s : State) : Bool := decide (s.st.toNat > 0)

/-- A diagnostic snapshot: the whole state with the address and bits of the opcode that faulted (60_exceptions.md R224). -/
structure Snapshot where
  state : State
  pc0 : Word
  op : Word
  deriving DecidableEq, Repr

/-- The snapshot a faulted machine reports (60_exceptions.md R224). DESIGN CHOICE (log 47): it holds the state as it is when asked
for, which right after the faulting step is the state at the fault, and shows what the host has done since; the spec gives the
snapshot at the fault only. -/
def State.snapshot (s : State) : Option Snapshot :=
  match s.status with
  | .faulted pc0 op => some ⟨s, pc0, op⟩
  | _ => none

end Sys2Proof.Machine
end

