-- ==== Sys2Proof/Safety.lean ====
section
/-! DEFINITION. The terms claims are stated in: which parts of a state are kept, the invariant of the machine, the pixel of a column
and row, and the end of a run. -/

namespace Sys2Proof.Machine

/-- The components of the state (10_state.md R20), and the model's own two fields. -/
inductive Part where
  | v | i | pc | sp | stack | dt | st | key | ext | uflag | mem | fb | draw | status | params | rngCount
  deriving DecidableEq, Repr

/-- The component is the same in both states. Memory is compared through the read of each byte, the framebuffer through each cell. -/
def Part.same (s t : State) : Part → Prop
  | .v => ∀ r : Reg, t.reg r = s.reg r
  | .i => t.i = s.i
  | .pc => t.pc = s.pc
  | .sp => t.sp = s.sp
  | .stack => t.stack = s.stack
  | .dt => t.dt = s.dt
  | .st => t.st = s.st
  | .key => t.key = s.key
  | .ext => t.ext = s.ext
  | .uflag => t.uflag = s.uflag
  | .mem => ∀ a : Nat, t.readByte a = s.readByte a
  | .fb => ∀ c : Nat, Framebuffer.lit t.fb c = Framebuffer.lit s.fb c
  | .draw => t.draw = s.draw
  | .status => t.status = s.status
  | .params => t.params = s.params
  | .rngCount => t.rngCount = s.rngCount

/-- Every component but the named ones is the same in `t` as in `s`. -/
def KeepsAllBut (parts : List Part) (s t : State) : Prop := ∀ p : Part, p ∉ parts → p.same s t

/-- Every general register but the named ones is the same in `t` as in `s`. -/
def KeepsRegsBut (regs : List Reg) (s t : State) : Prop := ∀ r : Reg, r ∉ regs → t.reg r = s.reg r

/-- The pixel at column `x` and row `y` of dimensions `d` is on (10_state.md R35). -/
def State.pixel (s : State) (d : Dims) (x y : Nat) : Bool := Framebuffer.lit s.fb (d.cellOf x y)

/-- The cell lies outside the active area (10_state.md R35). -/
def State.outside (s : State) (c : Nat) : Prop := s.dims.w * s.dims.h ≤ c

/-- What holds of every state a run reaches: memory and framebuffer keep their canonical forms, `PC` keeps the bound of
10_state.md R25, and every live stack entry is the address of an opcode that was fetched. -/
structure Inv (s : State) : Prop where
  mem : Memory.wf s.params.resetByte s.mem = true
  fb : Framebuffer.wf s.fb = true
  pc : s.pc.toNat ≤ 0x10FE
  live : ∀ j : Fin 16, s.sp.val ≤ j.val → s.stack[j].toNat ≤ 0xFFE

/-- The end of a run (70_reset_and_hazards.md R270): the opcode at `PC` is a jump to `PC` itself. -/
def AtSelfJump (s : State) : Prop := ∃ nnn : Addr12, fetch s = .ok (encode (.jp nnn)) ∧ target nnn = s.pc

/-- The next step is no fault and no refusal. -/
def CanStep (s : State) : Prop := ∃ t : State, step s = .next t

/-- `t` is `s` after an instruction that writes a result to `V[x]` and then a flag to VF and goes on: VF holds the flag, `V[x]` the
result unless x is 0xF, and nothing else but `PC` changes (42_alu.md R141). -/
def FlagResult (x : Reg) (result flag : Nat) (s t : State) : Prop :=
  (t.reg 0xF).toNat = flag ∧ (x ≠ 0xF → (t.reg x).toNat = result) ∧ KeepsRegsBut [x, 0xF] s t ∧
  t.pc = s.pc + 2 ∧ KeepsAllBut [.v, .pc] s t

/-- `t` is `s` after an instruction that writes `V[x]` and goes on: nothing else but `PC` changes. -/
def RegResult (x : Reg) (result : Byte) (s t : State) : Prop :=
  t.reg x = result ∧ KeepsRegsBut [x] s t ∧ t.pc = s.pc + 2 ∧ KeepsAllBut [.v, .pc] s t

/-! ### Sprites as 40_display.md R106 and R107 give them -/

/-- The width of the screen (10_state.md R33). -/
def screenW (ext : Bool) : Nat := if ext then 128 else 64

/-- The height of the screen (10_state.md R33). -/
def screenH (ext : Bool) : Nat := if ext then 64 else 32

/-- The rows of a sprite (40_display.md R106). -/
def spriteRows (n : Nibble) : Nat := if n = 0 then 16 else n.toNat

/-- The width of a sprite in pixels (40_display.md R106). -/
def spriteWidth (n : Nibble) (ext : Bool) : Nat := if n = 0 ∧ ext = true then 16 else 8

/-- The bytes of a row of a sprite (40_display.md R106). -/
def spriteBpr (n : Nibble) (ext : Bool) : Nat := if n = 0 ∧ ext = true then 2 else 1

/-- The address of the last byte of the sprite (20_memory.md R54). -/
def spriteLast (n : Nibble) (s : State) : Nat := s.i.toNat + spriteRows n * spriteBpr n s.ext - 1

/-- Some set bit of the sprite at `I`, drawn at the coordinates `V[x]` and `V[y]`, falls on cell `c` (40_display.md R106, R107). -/
def SpriteHits (x y : Reg) (n : Nibble) (s : State) (c : Nat) : Prop :=
  ∃ r < spriteRows n, ∃ k < spriteWidth n s.ext,
    (s.readByte (s.i.toNat + r * spriteBpr n s.ext + k / 8)).getLsbD (7 - k % 8) = true ∧
    c = ((s.reg y).toNat + r) % screenH s.ext * screenW s.ext + ((s.reg x).toNat + k) % screenW s.ext

/-- The draw meets a cell that is on (40_display.md R107). -/
def SpriteCollides (x y : Reg) (n : Nibble) (s : State) : Prop :=
  ∃ c, SpriteHits x y n s c ∧ Framebuffer.lit s.fb c = true

/-! ### What an instruction may write -/

/-- The registers an instruction's rule writes: its destinations, and VF where the rule writes a flag (10_state.md R21, R22). -/
def WritesReg (i : Instr) (r : Reg) : Prop :=
  match i with
  | .ldImm x _ | .addImm x _ | .ldReg x _ | .orReg x _ | .andReg x _ | .xorReg x _ | .rnd x _ | .ldVxDt x | .ldVxK x => r = x
  | .addReg x _ | .subReg x _ | .shr x _ | .subn x _ | .shl x _ => r = x ∨ r = 0xF
  | .addI _ | .drw _ _ _ => r = 0xF
  | .ldRegs x | .ldFlags x => r.val ≤ x.val
  | .cls | .ret | .scd _ | .scr | .scl | .low | .high | .jp _ | .call _ | .seImm _ _ | .sneImm _ _ | .seReg _ _ | .sneReg _ _
  | .ldI _ | .jpV0 _ | .skp _ | .sknp _ | .ldDtVx _ | .ldStVx _ | .ldF _ | .ldHf _ | .ldB _ | .stRegs _ | .stFlags _ => False

/-- The components, other than the registers and `PC`, that an instruction's rule may write. -/
def mayWrite : Instr → List Part
  | .cls | .scd _ | .scr | .scl | .drw _ _ _ => [.fb, .draw]
  | .low | .high => [.ext]
  | .ret => [.sp]
  | .call _ => [.sp, .stack]
  | .rnd _ _ => [.rngCount]
  | .ldDtVx _ => [.dt]
  | .ldStVx _ => [.st]
  | .ldI _ | .addI _ | .ldF _ | .ldHf _ | .ldRegs _ => [.i]
  | .ldB _ => [.mem]
  | .stRegs _ => [.mem, .i]
  | .stFlags _ => [.uflag]
  | .jp _ | .seImm _ _ | .sneImm _ _ | .seReg _ _ | .sneReg _ _ | .jpV0 _ | .skp _ | .sknp _ => []
  | .ldImm _ _ | .addImm _ _ | .ldReg _ _ | .orReg _ _ | .andReg _ _ | .xorReg _ _ | .addReg _ _ | .subReg _ _ => []
  | .shr _ _ | .subn _ _ | .shl _ _ | .ldVxDt _ | .ldVxK _ | .ldFlags _ => []

end Sys2Proof.Machine
end

