-- ==== Sys2Proof/Certificates/Slice0/Obligations.lean ====
section
/-! DEFINITION. The statements for the provers, made from the rules of spec/. Each says in its docstring what it states and, where
it rests on a choice of the spec's own (a decision D<n>) or of the model's, names the log entry. -/

open Sys2Proof Sys2Proof.Machine

/-- For every instruction with every operand its fields admit, and any bytes after it, decoding its two big-endian bytes gives
that instruction and leaves the rest; and the decoder on its table word gives it too.
Rests on: 30_encoding.md section 2 (Format and fields); 30_encoding.md section 3 (Opcode map). -/
def Obligations.DecodeOfEncodeIsTheInstruction : Prop :=
  ∀ (i : Instr) (rest : List Byte),
    decodeBytes (encodeBytes i ++ rest) = .ok (i, rest) ∧ decodeTableWord 16 (encode i).toNat = some i

/-- For every opcode and instruction, if the opcode decodes to the instruction then encoding the instruction gives the opcode.
Rests on: 30_encoding.md section 2 (Format and fields); 30_encoding.md section 3 (Opcode map). -/
def Obligations.EncodeOfDecodeIsTheOpcode : Prop :=
  ∀ (op : Word) (i : Instr), decode op = .ok i → encode i = op

/-- For every opcode: if some match/mask row of the table selects it, it decodes to an instruction whose own row selects it; if
none does, decode rejects it by name, and a running machine that fetches it answers the fault UnknownOpcode with the address
and the opcode, the state being as before.
Rests on: R78. -/
def Obligations.OpcodeOutsideTheTableFaults : Prop :=
  ∀ op : Word,
    (legalOpcode op = true → ∃ i : Instr, decode op = .ok i ∧ i.row ∈ opcodeTable ∧ i.row.selects op = true) ∧
    (legalOpcode op = false → decode op = .error (.unknownOpcode op) ∧
      ∀ s : State, s.status = .running → fetch s = .ok op →
        step s = .fault (.unknownOpcode s.pc op) ∧ KeepsAllBut [.status] s s.stepCall)

/-- For every opcode and any two rows of the table, if both select the opcode they are the same row.
Rests on: 30_encoding.md section 3 (Opcode map), "No two rows select the same opcode". -/
def Obligations.NoTwoTableRowsSelectOneOpcode : Prop :=
  ∀ (op : Word) (r r' : OpcodeRow), r ∈ opcodeTable → r' ∈ opcodeTable →
    r.selects op = true → r'.selects op = true → r = r'

/-- The opcodes 00C2, 00EE, 2400, 3C0F, 8127, C30F, D011, A123, F255, E59E and F30A decode to SCD 2, RET, CALL 400, SE VC 0F,
SUBN V1 V2, RND V3 0F, DRW V0 V1 1, LD I 123, LD [I] V2, SKP V5 and LD V3 K. They cover the spec's files of display, control
flow, arithmetic, index and memory, and keypad and timers, not every value of the top nibble. That 8127 is SUBN, its low
nibble 7, is PRESUMED (log 46): the spec marks the low nibbles of 8XY_ as general knowledge.
Rests on: 30_encoding.md section 3 (Opcode map); 93_implementation_defined.md G2; 95_test_vectors.md L2. -/
def Obligations.SampleOpcodesDecode : Prop :=
  decode 0x00C2 = .ok (.scd 2) ∧ decode 0x00EE = .ok .ret ∧ decode 0x2400 = .ok (.call 0x400) ∧
    decode 0x3C0F = .ok (.seImm 0xC 0x0F) ∧ decode 0x8127 = .ok (.subn 1 2) ∧ decode 0xC30F = .ok (.rnd 3 0x0F) ∧
    decode 0xD011 = .ok (.drw 0 1 1) ∧ decode 0xA123 = .ok (.ldI 0x123) ∧ decode 0xF255 = .ok (.stRegs 2) ∧
    decode 0xE59E = .ok (.skp 5) ∧ decode 0xF30A = .ok (.ldVxK 3)

/-- For every running state whose PC has two bytes at or below 0xFFF, if those two bytes, the lower address first, decode to an
instruction then the step is exactly that instruction executed on that state. One instruction per step is the spec's own
decision D1 (log 1).
Rests on: 30_encoding.md section 1 (Fetch); 30_encoding.md section 6 (One step); 20_memory.md section 2 (big-endian fetch);
92_eei_decisions.md D1. -/
def Obligations.StepRunsTheDecodedInstruction : Prop :=
  ∀ (s : State) (i : Instr), s.status = .running → s.pc.toNat + 1 ≤ 0xFFF →
    decodeBytes [s.readByte s.pc.toNat, s.readByte (s.pc.toNat + 1)] = .ok (i, []) → step s = exec i s

/-- For every running state with PC + 1 above 0xFFF the step answers the refusal FetchOutOfRange(PC), whatever memory holds.
Rests on: 30_encoding.md section 1 (Fetch); 92_eei_decisions.md D2. -/
def Obligations.FetchPastTheTopIsRefused : Prop :=
  ∀ s : State, s.status = .running → 0xFFF < s.pc.toNat + 1 → step s = .refused (.fetchOutOfRange s.pc)

/-- In every running state, in either mode: a fetched opcode that no row of the table selects makes the step fault
UnknownOpcode(pc0, op), whose record names pc0 and op and leaves all else as it was; and every fault of a step is of that
kind; no instruction raises one.
Rests on: R221. -/
def Obligations.UnknownOpcodeIsTheOnlyFault : Prop :=
  (∀ (s : State) (op : Word), s.status = .running → fetch s = .ok op → legalOpcode op = false →
      step s = .fault (.unknownOpcode s.pc op) ∧ s.stepCall.status = .faulted s.pc op ∧ KeepsAllBut [.status] s s.stepCall) ∧
    (∀ (s : State) (f : Fault), s.status = .running → step s = .fault f →
      ∃ op : Word, fetch s = .ok op ∧ legalOpcode op = false ∧ f = .unknownOpcode s.pc op) ∧
    (∀ (i : Instr) (s : State) (f : Fault), exec i s ≠ .fault f)

/-- For every state whose status is not Running: no step gives a next state, a call of step() changes nothing, and after any
sequence of host operations the status is the one it was.
Rests on: 60_exceptions.md section 2 (The unknown-opcode fault); 10_state.md section 7 (Configuration and status);
92_eei_decisions.md D26. -/
def Obligations.StoppedMachineHasNoFurtherStep : Prop :=
  ∀ s : State, s.status ≠ .running →
    ¬ CanStep s ∧ s.stepCall = s ∧ ∀ ops : List HostOp, (s.hostRun ops).status = s.status

/-- For every running state: either the step gives a next state, still running, and a call of step() leaves exactly it; or a call
of step() keeps every component but the status, which is then not Running, and PC is still the address of the opcode.
Rests on: 60_exceptions.md section 4 (Priority); 92_eei_decisions.md D33. -/
def Obligations.StopsArePrecise : Prop :=
  ∀ s : State, s.status = .running →
    (∃ t : State, step s = .next t ∧ s.stepCall = t ∧ t.status = .running) ∨
    (¬ CanStep s ∧ s.stepCall.status ≠ .running ∧ KeepsAllBut [.status] s s.stepCall)

/-- For all parameters, after init(): every V, I, DT, ST and user flag is 0, PC is 0x200, SP is 16, the keys are up, the mode is
standard, the machine is running; memory holds FONT_LO at 0x000 to 0x04F, FONT_HI at 0x050 to 0x0EF and 0 from 0x0F0 to
0xFFF; the stack entries are 0 and the framebuffer and redraw flag are off, which with the place of the fonts are the spec's
own choices.
Rests on: 10_state.md section 8 (Reset values); 20_memory.md section 3 (Address map); 92_eei_decisions.md D12, D28, D35. -/
def Obligations.InitIsTheResetState : Prop :=
  ∀ p : Params,
    (∀ r : Reg, (State.init p).reg r = 0) ∧ (State.init p).i = 0 ∧ (State.init p).pc = 0x200 ∧ (State.init p).sp = 16 ∧
    (State.init p).dt = 0 ∧ (State.init p).st = 0 ∧ (∀ k : Fin 16, (State.init p).key[k] = false) ∧
    (State.init p).ext = false ∧ (∀ j : Fin 8, (State.init p).uflag[j] = 0) ∧ (State.init p).status = .running ∧
    (∀ j : Fin 80, (State.init p).readByte j.val = p.fontLo[j]) ∧
    (∀ j < 160, (State.init p).readByte (0x50 + j) = Config.fontHi j) ∧
    (∀ a : Nat, 0xF0 ≤ a → a ≤ 0xFFF → (State.init p).readByte a = 0) ∧
    (∀ j : Fin 16, (State.init p).stack[j] = 0) ∧ (∀ c : Nat, Framebuffer.lit (State.init p).fb c = false) ∧
    (State.init p).draw = false ∧ (State.init p).params = p

/-- For all parameters the state after init() has memory and framebuffer in canonical form, PC at most 0x10FE, and no live stack
entry above 0xFFE (the stack is empty). The canonical forms are the model's own (logs 40, 41).
Rests on: 10_state.md section 8 (Reset values); 10_state.md section 3 (Index register, program counter, stack). -/
def Obligations.InvariantHoldsAfterInit : Prop :=
  ∀ p : Params, Inv (State.init p)

/-- For every state that meets the invariant, if the step gives a next state then that state meets it: PC never wraps at 16 bits,
return addresses are addresses of fetched opcodes, cells stay within the 8192 of the framebuffer and stores within the 4096
bytes of memory. The clause on live stack entries rests on the spec's own decision D4 that a call pushes pc0 (log 4), and
would be false of pushing pc0 + 2; the canonical forms of framebuffer and memory are the model's own (logs 40, 41).
Rests on: 10_state.md section 3 (Index register, program counter, stack); 10_state.md section 6 (Framebuffer and redraw
flag); 20_memory.md section 2; 90_conflicts.md C7; 92_eei_decisions.md D4. -/
def Obligations.EveryStepKeepsTheInvariant : Prop :=
  ∀ s t : State, Inv s → step s = .next t → Inv t

/-- For all parameters and every sequence of host operations in any order and number, the state reached from init() meets the
invariant. Its bound on live stack entries rests on the spec's own decision D4 that a call pushes pc0 (log 4), its canonical
forms on the model's own choices (logs 40, 41), and that any order is admitted on D32 (log 32).
Rests on: 60_exceptions.md section 6 (Host interface); 60_exceptions.md section 9, R241 (any interleaving; D32, log 32);
70_reset_and_hazards.md section 2 (Program load); 92_eei_decisions.md D4. -/
def Obligations.EveryHostRunKeepsTheInvariant : Prop :=
  ∀ (p : Params) (ops : List HostOp), Inv ((State.init p).hostRun ops)

/-- For every instruction that gives a next state: a general register changes only if it is a destination or the VF of a flag-
writing rule; memory changes only under FX33 and FX55, the framebuffer only under 00E0, 00CN, 00FB, 00FC and DXYN, ext only
under 00FE and 00FF, the stack only under 2NNN, SP only under 2NNN and 00EE, DT under FX15, ST under FX18, the user flags
under FX75, I only under its writers; keys, status and parameters never. Where a rule rests on D6, D7, D11 or D21 (VF last,
logic ops, FX33, mode switch) it is the spec's own choice (logs 6, 7, 11, 21).
Rests on: 20_memory.md section 1 and section 4 (what reaches memory, framebuffer, stack, flags and timers); 10_state.md
sections 2 to 7; 60_exceptions.md section 6; 92_eei_decisions.md D6, D7, D11, D21. -/
def Obligations.InstructionsWriteOnlyWhatTheirRulesName : Prop :=
  ∀ (i : Instr) (s t : State), exec i s = .next t →
    (∀ r : Reg, ¬ WritesReg i r → t.reg r = s.reg r) ∧ KeepsAllBut (.v :: .pc :: mayWrite i) s t

/-- For every instruction that gives a next state: other than 00EE, 1NNN, 2NNN, BNNN (targets), the six skips and FX0A it ends
with PC = pc0 + 2; 1NNN and 2NNN end at NNN; a register or immediate skip ends with pc0 + 4 when taken and else with pc0 + 2,
whatever opcode stands at pc0 + 2, and a key skip with one of the two; FX0A ends with pc0 when no key is pressed and with pc0
+ 2 otherwise.
Rests on: R84. -/
def Obligations.ProgramCounterAfterAnInstruction : Prop :=
  ∀ (i : Instr) (s t : State), exec i s = .next t →
    match i with
    | .ret | .jpV0 _ => True
    | .jp nnn | .call nnn => t.pc.toNat = nnn.toNat
    | .seImm x nn => t.pc = (if s.reg x = nn then s.pc + 4 else s.pc + 2)
    | .sneImm x nn => t.pc = (if s.reg x ≠ nn then s.pc + 4 else s.pc + 2)
    | .seReg x y => t.pc = (if s.reg x = s.reg y then s.pc + 4 else s.pc + 2)
    | .sneReg x y => t.pc = (if s.reg x ≠ s.reg y then s.pc + 4 else s.pc + 2)
    | .skp _ | .sknp _ => t.pc = s.pc + 4 ∨ t.pc = s.pc + 2
    | .ldVxK _ => t.pc = (if ∃ k : Fin 16, s.key[k] = true then s.pc + 2 else s.pc)
    | .cls | .scd _ | .scr | .scl | .low | .high | .ldImm _ _ | .addImm _ _ | .ldReg _ _ | .orReg _ _ | .andReg _ _
    | .xorReg _ _ | .addReg _ _ | .subReg _ _ | .shr _ _ | .subn _ _ | .shl _ _ | .ldI _ | .rnd _ _ | .drw _ _ _
    | .ldVxDt _ | .ldDtVx _ | .ldStVx _ | .addI _ | .ldF _ | .ldHf _ | .ldB _ | .stRegs _ | .ldRegs _ | .stFlags _
    | .ldFlags _ => t.pc = s.pc + 2

/-- For every instruction that gives a next state the redraw flag stays set if it was set, and is unchanged unless the
instruction is 00E0, 00CN, 00FB, 00FC (which set it) or DXYN (under its redraw rule); with the flag at any other value the
instruction ends the same way and in the same state but for that flag; the host's clear clears it and none of its other
operations do.
Rests on: R36. -/
def Obligations.RedrawFlagIsOnlySetAndNeverRead : Prop :=
  (∀ (i : Instr) (s t : State), exec i s = .next t →
      (s.draw = true → t.draw = true) ∧
      (i = .cls ∨ (∃ n, i = .scd n) ∨ i = .scr ∨ i = .scl → t.draw = true) ∧
      (i ≠ .cls → (∀ n, i ≠ .scd n) → i ≠ .scr → i ≠ .scl → (∀ x y n, i ≠ .drw x y n) → t.draw = s.draw)) ∧
    (∀ (i : Instr) (s : State) (b : Bool),
      (∀ t : State, exec i s = .next t →
        ∃ u : State, exec i (s.setDraw b) = .next u ∧ u.setDraw false = t.setDraw false) ∧
      (∀ r : Refusal, exec i s = .refused r → exec i (s.setDraw b) = .refused r)) ∧
    (∀ s : State, s.clearDraw.draw = false ∧ KeepsAllBut [.draw] s s.clearDraw) ∧
    (∀ (s : State) (op : HostOp), op ≠ .clearDraw → s.draw = true → (HostOp.apply s op).draw = true)

/-- The opcode FX18 decodes to its instruction with X its field; for every state it gives a next state with ST = V[X], the tone
then on exactly when V[X] is above 0, PC = pc0 + 2 and all else as before; no other instruction changes ST; with ST at any
other value every instruction ends the same way and in the same state but for ST; tick() lowers ST by 1 unless it is 0; the
host reads the tone as on exactly when ST is above 0.
Rests on: R29; R205. -/
def Obligations.SoundTimerIsWrittenAndNeverRead : Prop :=
  (∀ op : Word, op &&& 0xF0FF = 0xF018 → decode op = .ok (.ldStVx (op.extractLsb' 8 4).toFin)) ∧
    (∀ (x : Reg) (s : State), ∃ t : State, exec (.ldStVx x) s = .next t ∧ t.st = s.reg x ∧
      (t.toneOn = true ↔ 0 < (s.reg x).toNat) ∧ t.pc = s.pc + 2 ∧ KeepsAllBut [.st, .pc] s t) ∧
    (∀ (i : Instr) (s t : State), exec i s = .next t → (∀ x, i ≠ .ldStVx x) → t.st = s.st) ∧
    (∀ (i : Instr) (s : State) (b : Byte),
      (∀ t : State, exec i s = .next t → ∃ u : State, exec i (s.setSt b) = .next u ∧ u.setSt 0 = t.setSt 0) ∧
      (∀ r : Refusal, exec i s = .refused r → exec i (s.setSt b) = .refused r)) ∧
    (∀ s : State, s.tick.st.toNat = s.st.toNat - 1) ∧
    (∀ s : State, s.toneOn = true ↔ 0 < s.st.toNat)

/-- For every running state whose fetched opcode is 1NNN with NNN equal to PC, the step gives the same state again.
Rests on: 70_reset_and_hazards.md section 6 (End of a run); 41_control_flow.md (1NNN); 92_eei_decisions.md D37. -/
def Obligations.SelfJumpStandsStill : Prop :=
  ∀ s : State, s.status = .running → AtSelfJump s → step s = .next s

/-- For every state and X with I + X at most 0xFFF: after FX55, if the next opcode's two bytes lie inside the bytes stored, the
fetch gives the opcode made of the two registers stored there.
Rests on: 20_memory.md section 5 (Ordering and synchronisation); 70_reset_and_hazards.md section 4 (Hazards). -/
def Obligations.FetchSeesTheBytesJustStored : Prop :=
  ∀ (x : Reg) (s : State), s.i.toNat + x.val ≤ 0xFFF → ∃ t : State, exec (.stRegs x) s = .next t ∧
    ∀ j : Reg, ∀ h : j.val + 1 < 16, j.val + 1 ≤ x.val → t.pc.toNat = s.i.toNat + j.val →
      fetch t = .ok (s.reg j ++ s.reg ⟨j.val + 1, h⟩)

/-- For every state 00E0 gives a next state with no cell on, the redraw flag set, PC = pc0 + 2 and all else as before.
Rests on: 40_display.md section 1 (00E0); 92_eei_decisions.md D22. -/
def Obligations.ClearScreenTurnsEveryCellOff : Prop :=
  ∀ s : State, ∃ t : State, exec .cls s = .next t ∧ (∀ c : Nat, Framebuffer.lit t.fb c = false) ∧ t.draw = true ∧
    t.pc = s.pc + 2 ∧ KeepsAllBut [.fb, .draw, .pc] s t

/-- For every state and N, 00CN gives a next state whose pixel (x, y) of the active dimensions is the old pixel (x, y - N) where
y is at least N and off above; cells outside the active area keep their values; the redraw flag is set, PC = pc0 + 2, all
else as before.
Rests on: 40_display.md section 1 (00CN); 92_eei_decisions.md D18. -/
def Obligations.ScrollDownMovesRows : Prop :=
  ∀ (n : Nibble) (s : State), ∃ t : State, exec (.scd n) s = .next t ∧
    (∀ x y : Nat, x < screenW s.ext → y < screenH s.ext → Framebuffer.lit t.fb (y * screenW s.ext + x)
      = (if n.toNat ≤ y then Framebuffer.lit s.fb ((y - n.toNat) * screenW s.ext + x) else false)) ∧
    (∀ c : Nat, screenW s.ext * screenH s.ext ≤ c → Framebuffer.lit t.fb c = Framebuffer.lit s.fb c) ∧
    t.draw = true ∧ t.pc = s.pc + 2 ∧ KeepsAllBut [.fb, .draw, .pc] s t

/-- For every state 00FB gives a next state whose pixel (x, y) is the old pixel (x - k, y) where x is at least k and off to the
left, k being 4 in extended mode and HSCROLL_STD in standard mode; cells outside the active area keep their values; the
redraw flag is set, PC = pc0 + 2, all else as before.
Rests on: 40_display.md section 1 (00FB); 92_eei_decisions.md D17. -/
def Obligations.ScrollRightMovesColumns : Prop :=
  ∀ (s : State) (k : Nat), k = (if s.ext = true then 4 else s.params.hscrollStd) → ∃ t : State, exec .scr s = .next t ∧
    (∀ x y : Nat, x < screenW s.ext → y < screenH s.ext → Framebuffer.lit t.fb (y * screenW s.ext + x)
      = (if k ≤ x then Framebuffer.lit s.fb (y * screenW s.ext + (x - k)) else false)) ∧
    (∀ c : Nat, screenW s.ext * screenH s.ext ≤ c → Framebuffer.lit t.fb c = Framebuffer.lit s.fb c) ∧
    t.draw = true ∧ t.pc = s.pc + 2 ∧ KeepsAllBut [.fb, .draw, .pc] s t

/-- For every state 00FC gives a next state whose pixel (x, y) is the old pixel (x + k, y) where x + k is inside the row and off
to the right, k as for 00FB; cells outside the active area keep their values; the redraw flag is set, PC = pc0 + 2, all else
as before.
Rests on: 40_display.md section 1 (00FC); 92_eei_decisions.md D17. -/
def Obligations.ScrollLeftMovesColumns : Prop :=
  ∀ (s : State) (k : Nat), k = (if s.ext = true then 4 else s.params.hscrollStd) → ∃ t : State, exec .scl s = .next t ∧
    (∀ x y : Nat, x < screenW s.ext → y < screenH s.ext → Framebuffer.lit t.fb (y * screenW s.ext + x)
      = (if x + k < screenW s.ext then Framebuffer.lit s.fb (y * screenW s.ext + (x + k)) else false)) ∧
    (∀ c : Nat, screenW s.ext * screenH s.ext ≤ c → Framebuffer.lit t.fb c = Framebuffer.lit s.fb c) ∧
    t.draw = true ∧ t.pc = s.pc + 2 ∧ KeepsAllBut [.fb, .draw, .pc] s t

/-- For every state 00FE gives a next state with ext false and 00FF one with ext true, PC = pc0 + 2, and every other component,
every cell and the redraw flag among them, as before.
Rests on: 40_display.md section 2 (Mode switch); 92_eei_decisions.md D21. -/
def Obligations.ModeSwitchChangesOnlyTheMode : Prop :=
  ∀ s : State,
    (∃ t : State, exec .low s = .next t ∧ t.ext = false ∧ t.pc = s.pc + 2 ∧ KeepsAllBut [.ext, .pc] s t) ∧
    (∃ t : State, exec .high s = .next t ∧ t.ext = true ∧ t.pc = s.pc + 2 ∧ KeepsAllBut [.ext, .pc] s t)

/-- For every state with a canonical framebuffer whose sprite bytes end at or below 0xFFF, DXYN gives a next state in which a
cell is on exactly when it was on and no set bit of the sprite, wrapped at V[X], V[Y], falls on it, or was off and one does;
VF is 1 if a set bit met an on cell and else 0; the redraw flag is set unless NO_OVERDRAW holds and nothing collided, when it
keeps its value; PC = pc0 + 2; all else as before. Bit order, the VF = 0, the redraw condition and the coordinates are the
spec's own choices (logs 14, 15, 16, 36).
Rests on: 40_display.md section 3 (Sprite draw); 90_conflicts.md C1, C6; 92_eei_decisions.md D14, D15, D16, D36. -/
def Obligations.DrawXorsTheSpriteAndReportsCollision : Prop :=
  ∀ (x y : Reg) (n : Nibble) (s : State), Framebuffer.wf s.fb = true → spriteLast n s ≤ 0xFFF →
    ∃ t : State, exec (.drw x y n) s = .next t ∧
    (∀ c : Nat, Framebuffer.lit t.fb c = true ↔ ¬ (Framebuffer.lit s.fb c = true ↔ SpriteHits x y n s c)) ∧
    (SpriteCollides x y n s → t.reg 0xF = 1 ∧ t.draw = true) ∧
    (¬ SpriteCollides x y n s → t.reg 0xF = 0 ∧ t.draw = (s.draw || !s.params.noOverdraw)) ∧
    KeepsRegsBut [0xF] s t ∧ t.pc = s.pc + 2 ∧ KeepsAllBut [.v, .fb, .draw, .pc] s t

/-- For every state and operands, if I + rows * bytes per row - 1 is above 0xFFF then DXYN answers the refusal MemOutOfRange.
Rests on: 40_display.md section 3 (DXYN); 20_memory.md section 2; 92_eei_decisions.md D2. -/
def Obligations.DrawPastTheTopIsRefused : Prop :=
  ∀ (x y : Reg) (n : Nibble) (s : State), 0xFFF < spriteLast n s → exec (.drw x y n) s = .refused .memOutOfRange

/-- For every state with a canonical framebuffer, sprite bytes at or below 0xFFF and X, Y other than F: DXYN twice gives back
every cell; and if the screen was blank and the sprite has a set bit, the first draw leaves VF = 0 and the second VF = 1.
Rests on: 95_test_vectors.md L1-6; 40_display.md section 3 (Sprite draw); 92_eei_decisions.md D14, D15, D36. -/
def Obligations.DrawingTwiceRestoresThePicture : Prop :=
  ∀ (x y : Reg) (n : Nibble) (s : State), Framebuffer.wf s.fb = true → spriteLast n s ≤ 0xFFF → x ≠ 0xF → y ≠ 0xF →
    ∃ t u : State, exec (.drw x y n) s = .next t ∧ exec (.drw x y n) t = .next u ∧
    (∀ c : Nat, Framebuffer.lit u.fb c = Framebuffer.lit s.fb c) ∧
    ((∀ c : Nat, Framebuffer.lit s.fb c = false) → (∃ c : Nat, SpriteHits x y n s c) → t.reg 0xF = 0 ∧ u.reg 0xF = 1)

/-- For every state with SP below 16, 00EE gives a next state with PC = stack[SP] + 2, SP one higher, the entry not cleared and
all else as before.
Rests on: 41_control_flow.md (00EE); 92_eei_decisions.md D3, D4. -/
def Obligations.ReturnPopsTheCallSite : Prop :=
  ∀ (s : State) (h : s.sp.val < 16), ∃ t : State, exec .ret s = .next t ∧ t.pc = s.stack[s.sp.val] + 2 ∧
    t.sp.val = s.sp.val + 1 ∧ KeepsAllBut [.pc, .sp] s t

/-- An opcode 1NNN decodes to the jump with NNN its low 12 bits; for every state it gives a next state with PC = NNN, zero-
extended, and all else as before; a jump to its own address leaves the state unchanged; a running machine at target 0xFFF
refuses the next fetch, a refusal that is the spec's own decision D2 (log 2).
Rests on: 41_control_flow.md (1NNN); 30_encoding.md section 1 (Fetch); 20_memory.md section 2; 92_eei_decisions.md D2. -/
def Obligations.JumpGoesToItsTarget : Prop :=
  (∀ op : Word, op &&& 0xF000 = 0x1000 → decode op = .ok (.jp (op.extractLsb' 0 12))) ∧
    (∀ (nnn : Addr12) (s : State), ∃ t : State, exec (.jp nnn) s = .next t ∧ t.pc = nnn.setWidth 16 ∧
      t.pc.toNat = nnn.toNat ∧ KeepsAllBut [.pc] s t ∧ (nnn.setWidth 16 = s.pc → t = s) ∧
      (nnn = 0xFFF → s.status = .running → step t = .refused (.fetchOutOfRange 0xFFF)))

/-- For every state with SP above 0, 2NNN gives a next state with SP one lower, the entry at the new SP equal to pc0, every other
entry as before, PC = NNN, and all else as before.
Rests on: 41_control_flow.md (2NNN); 90_conflicts.md C7; 92_eei_decisions.md D3, D4. -/
def Obligations.CallPushesItsOwnAddress : Prop :=
  ∀ (nnn : Addr12) (s : State), 0 < s.sp.val → ∃ t : State, exec (.call nnn) s = .next t ∧
    t.sp.val = s.sp.val - 1 ∧ (∀ j : Fin 16, t.stack[j] = (if j.val = s.sp.val - 1 then s.pc else s.stack[j])) ∧
    t.pc.toNat = nnn.toNat ∧ KeepsAllBut [.pc, .sp, .stack] s t

/-- For every state with SP above 0, 2NNN and then 00EE give next states, the second with PC = pc0 + 2 of the call, SP as before
the call, and every component but PC and the stack as before.
Rests on: 95_test_vectors.md L1-4; 41_control_flow.md (00EE, 2NNN); 92_eei_decisions.md D4. -/
def Obligations.CallThenReturnComesBack : Prop :=
  ∀ (nnn : Addr12) (s : State), 0 < s.sp.val → ∃ t u : State, exec (.call nnn) s = .next t ∧ exec .ret t = .next u ∧
    u.pc = s.pc + 2 ∧ u.sp = s.sp ∧ KeepsAllBut [.pc, .stack] s u

/-- For every state: with SP = 16, 00EE answers the refusal StackUnderflow; with SP = 0, 2NNN answers the refusal StackOverflow.
Rests on: 41_control_flow.md (00EE, 2NNN); 92_eei_decisions.md D3. -/
def Obligations.StackLimitsAreRefused : Prop :=
  ∀ s : State, (s.sp = 16 → exec .ret s = .refused .stackUnderflow) ∧
    (s.sp = 0 → ∀ nnn : Addr12, exec (.call nnn) s = .refused .stackOverflow)

/-- An opcode 3XNN or 4XNN decodes to its skip with X and NN its fields; for every state 3XNN gives a next state with PC = pc0 +
4 if V[X] = NN and else pc0 + 2, 4XNN the other way round, and nothing but PC changes, whatever stands at pc0 + 2.
Rests on: R123; R124. -/
def Obligations.SkipOnImmediate : Prop :=
  (∀ op : Word, op &&& 0xF000 = 0x3000 → decode op = .ok (.seImm (op.extractLsb' 8 4).toFin (op.extractLsb' 0 8))) ∧
    (∀ op : Word, op &&& 0xF000 = 0x4000 → decode op = .ok (.sneImm (op.extractLsb' 8 4).toFin (op.extractLsb' 0 8))) ∧
    (∀ (x : Reg) (nn : Byte) (s : State),
      (∃ t : State, exec (.seImm x nn) s = .next t ∧ t.pc = (if s.reg x = nn then s.pc + 4 else s.pc + 2) ∧
        KeepsAllBut [.pc] s t) ∧
      (∃ t : State, exec (.sneImm x nn) s = .next t ∧ t.pc = (if s.reg x ≠ nn then s.pc + 4 else s.pc + 2) ∧
        KeepsAllBut [.pc] s t))

/-- An opcode 5XY0 or 9XY0 decodes to its skip with X and Y its fields, and with a low nibble other than 0 it is rejected, which
is the spec's own decision D27 (log 27); for every state 5XY0 gives a next state with PC = pc0 + 4 if V[X] = V[Y] and else
pc0 + 2, 9XY0 the other way round, and nothing but PC changes; with X = Y the first always and the second never skips.
Rests on: 41_control_flow.md (5XY0, 9XY0); 30_encoding.md section 4 (Illegal, reserved and hint encodings);
92_eei_decisions.md D27. -/
def Obligations.SkipOnRegisters : Prop :=
  (∀ op : Word, op &&& 0xF00F = 0x5000 → decode op = .ok (.seReg (op.extractLsb' 8 4).toFin (op.extractLsb' 4 4).toFin)) ∧
    (∀ op : Word, op &&& 0xF00F = 0x9000 → decode op = .ok (.sneReg (op.extractLsb' 8 4).toFin (op.extractLsb' 4 4).toFin)) ∧
    (∀ op : Word, op &&& 0xF000 = 0x5000 ∨ op &&& 0xF000 = 0x9000 → op &&& 0x000F ≠ 0 →
      decode op = .error (.unknownOpcode op)) ∧
    (∀ (x y : Reg) (s : State),
      (∃ t : State, exec (.seReg x y) s = .next t ∧ t.pc = (if s.reg x = s.reg y then s.pc + 4 else s.pc + 2) ∧
        (x = y → t.pc = s.pc + 4) ∧ KeepsAllBut [.pc] s t) ∧
      (∃ t : State, exec (.sneReg x y) s = .next t ∧ t.pc = (if s.reg x ≠ s.reg y then s.pc + 4 else s.pc + 2) ∧
        (x = y → t.pc = s.pc + 2) ∧ KeepsAllBut [.pc] s t))

/-- For every state and NNN, BNNN gives a next state with PC equal to the exact sum of NNN and V[0], and all else as before.
Rests on: 41_control_flow.md (BNNN); 92_eei_decisions.md D2. -/
def Obligations.JumpWithOffsetAddsV0 : Prop :=
  ∀ (nnn : Addr12) (s : State), ∃ t : State, exec (.jpV0 nnn) s = .next t ∧
    t.pc.toNat = nnn.toNat + (s.reg 0).toNat ∧ KeepsAllBut [.pc] s t

/-- An opcode 6XNN decodes to the load with X and NN its fields; for every state it gives a next state with V[X] = NN, every
other register as before, PC = pc0 + 2 and all else as before.
Rests on: R142. -/
def Obligations.LoadImmediateSetsTheRegister : Prop :=
  (∀ op : Word, op &&& 0xF000 = 0x6000 → decode op = .ok (.ldImm (op.extractLsb' 8 4).toFin (op.extractLsb' 0 8))) ∧
    (∀ (x : Reg) (nn : Byte) (s : State), ∃ t : State, exec (.ldImm x nn) s = .next t ∧ RegResult x nn s t)

/-- An opcode 7XNN decodes to the add with X and NN its fields; for every state it gives a next state with V[X] = (V[X] + NN) mod
256, every other register, VF among them, as before, PC = pc0 + 2 and all else as before.
Rests on: R143. -/
def Obligations.AddImmediateWrapsWithoutFlag : Prop :=
  (∀ op : Word, op &&& 0xF000 = 0x7000 → decode op = .ok (.addImm (op.extractLsb' 8 4).toFin (op.extractLsb' 0 8))) ∧
    (∀ (x : Reg) (nn : Byte) (s : State), ∃ t : State, exec (.addImm x nn) s = .next t ∧
      (t.reg x).toNat = ((s.reg x).toNat + nn.toNat) % 256 ∧ KeepsRegsBut [x] s t ∧ t.pc = s.pc + 2 ∧
      KeepsAllBut [.v, .pc] s t)

/-- An opcode 8XY0 decodes to the copy with X and Y its fields, its low nibble 0 being PRESUMED (log 46), general knowledge by
the spec's own mark; for every state it gives a next state with V[X] = V[Y], every other register as before, PC = pc0 + 2 and
all else as before; with X = Y no register changes.
Rests on: 42_alu.md section 3 (8XY0); 30_encoding.md section 3 (Opcode map); 93_implementation_defined.md G2. -/
def Obligations.CopySetsTheRegister : Prop :=
  (∀ op : Word, op &&& 0xF00F = 0x8000 → decode op = .ok (.ldReg (op.extractLsb' 8 4).toFin (op.extractLsb' 4 4).toFin)) ∧
    (∀ (x y : Reg) (s : State), ∃ t : State, exec (.ldReg x y) s = .next t ∧ RegResult x (s.reg y) s t ∧
      (x = y → KeepsAllBut [.pc] s t))

/-- For every state each of the three gives a next state with V[X] the bitwise OR, AND or XOR of V[X] and V[Y], every other
register, VF among them, as before, PC = pc0 + 2 and all else as before.
Rests on: 42_alu.md section 3 (8XY1, 8XY2, 8XY3); 92_eei_decisions.md D7. -/
def Obligations.BitwiseOperationsLeaveVF : Prop :=
  ∀ (x y : Reg) (s : State),
    (∃ t : State, exec (.orReg x y) s = .next t ∧ RegResult x (s.reg x ||| s.reg y) s t) ∧
    (∃ t : State, exec (.andReg x y) s = .next t ∧ RegResult x (s.reg x &&& s.reg y) s t) ∧
    (∃ t : State, exec (.xorReg x y) s = .next t ∧ RegResult x (s.reg x ^^^ s.reg y) s t)

/-- For every state 8XY4 gives a next state with V[X] = (V[X] + V[Y]) mod 256 unless X is F, VF = 1 if the sum is above 255 and
else 0, every other register as before, PC = pc0 + 2 and all else as before.
Rests on: 42_alu.md section 3 (8XY4); 42_alu.md section 1 (Arithmetic laws); 92_eei_decisions.md D6. -/
def Obligations.AddSetsCarry : Prop :=
  ∀ (x y : Reg) (s : State), ∃ t : State, exec (.addReg x y) s = .next t ∧
    FlagResult x (((s.reg x).toNat + (s.reg y).toNat) % 256)
      (if (s.reg x).toNat + (s.reg y).toNat > 255 then 1 else 0) s t

/-- For every state 8XY5 gives V[X] = (V[X] - V[Y]) mod 256 and VF = 1 exactly when V[X] is at least V[Y]; 8XY7 gives V[X] =
(V[Y] - V[X]) mod 256 and VF = 1 exactly when V[Y] is at least V[X]; when X is F the flag is what remains; every other
register and all else but PC = pc0 + 2 as before.
Rests on: 42_alu.md section 3 (8XY5, 8XY7); 42_alu.md section 1 (Arithmetic laws); 92_eei_decisions.md D6. -/
def Obligations.SubtractSetsNoBorrow : Prop :=
  ∀ (x y : Reg) (s : State),
    (∃ t : State, exec (.subReg x y) s = .next t ∧
      FlagResult x ((256 + (s.reg x).toNat - (s.reg y).toNat) % 256)
        (if (s.reg x).toNat ≥ (s.reg y).toNat then 1 else 0) s t) ∧
    (∃ t : State, exec (.subn x y) s = .next t ∧
      FlagResult x ((256 + (s.reg y).toNat - (s.reg x).toNat) % 256)
        (if (s.reg y).toNat ≥ (s.reg x).toNat then 1 else 0) s t)

/-- For every state, with the source V[X] or V[Y] as SHIFT_SRC says: 8XY6 gives V[X] = half the source and VF its bit 0; 8XYE
gives V[X] = twice the source mod 256 and VF its bit 7; when X is F the flag is what remains; every other register and all
else but PC = pc0 + 2 as before.
Rests on: 42_alu.md section 3 (8XY6, 8XYE); 92_eei_decisions.md D6, D8. -/
def Obligations.ShiftsPutTheirBitInVF : Prop :=
  ∀ (x y : Reg) (s : State) (b : Byte), b = (if s.params.shiftSrc = .vx then s.reg x else s.reg y) →
    (∃ t : State, exec (.shr x y) s = .next t ∧ FlagResult x (b.toNat / 2) (b.toNat % 2) s t) ∧
    (∃ t : State, exec (.shl x y) s = .next t ∧ FlagResult x (b.toNat * 2 % 256) (b.toNat / 128) s t)

/-- For every state CXNN gives a next state with V[X] equal to the next answer of the oracle AND NN, so that bits clear in NN are
clear in V[X] and NN = 0 gives 0; the oracle has been asked once more; every other register as before, PC = pc0 + 2 and all
else as before. The byte is a free value and nothing is said of it.
Rests on: 42_alu.md section 4 (Random); 92_eei_decisions.md D25. -/
def Obligations.RandomByteIsMasked : Prop :=
  ∀ (x : Reg) (nn : Byte) (s : State), ∃ t : State, exec (.rnd x nn) s = .next t ∧
    t.reg x = Config.rng s.rngCount &&& nn ∧ (∀ j : Nat, nn.getLsbD j = false → (t.reg x).getLsbD j = false) ∧
    (nn = 0 → t.reg x = 0) ∧ t.rngCount = s.rngCount + 1 ∧ KeepsRegsBut [x] s t ∧ t.pc = s.pc + 2 ∧
    KeepsAllBut [.v, .pc, .rngCount] s t

/-- An opcode ANNN decodes to the load with NNN its low 12 bits; for every state and every NNN it gives a next state with I =
NNN, zero-extended, PC = pc0 + 2 and all else as before.
Rests on: R170. -/
def Obligations.LoadIndexSetsI : Prop :=
  (∀ op : Word, op &&& 0xF000 = 0xA000 → decode op = .ok (.ldI (op.extractLsb' 0 12))) ∧
    (∀ (nnn : Addr12) (s : State), ∃ t : State, exec (.ldI nnn) s = .next t ∧ t.i = nnn.setWidth 16 ∧
      t.i.toNat = nnn.toNat ∧ t.pc = s.pc + 2 ∧ KeepsAllBut [.i, .pc] s t)

/-- For every state FX1E gives a next state with I = (I + V[X]) mod 65536 and VF = 1 exactly when the sum is above 0xFFFF under
carry16, or above 0x0FFF under above_fff, and else 0; every other register as before, PC = pc0 + 2 and all else as before.
Rests on: 43_index_memory.md section 1 (FX1E); 92_eei_decisions.md D6, D9. -/
def Obligations.AddToIndexReportsOverflow : Prop :=
  ∀ (x : Reg) (s : State), ∃ t : State, exec (.addI x) s = .next t ∧
    t.i.toNat = (s.i.toNat + (s.reg x).toNat) % 65536 ∧
    (s.params.fx1eFlag = .carry16 → t.reg 0xF = (if s.i.toNat + (s.reg x).toNat > 0xFFFF then 1 else 0)) ∧
    (s.params.fx1eFlag = .aboveFff → t.reg 0xF = (if s.i.toNat + (s.reg x).toNat > 0x0FFF then 1 else 0)) ∧
    KeepsRegsBut [0xF] s t ∧ t.pc = s.pc + 2 ∧ KeepsAllBut [.v, .i, .pc] s t

/-- For every state FX29 gives a next state with I = 5 * V[X] and FX30 one with I = 0x50 + 10 * V[X], exactly, PC = pc0 + 2 and
all else as before.
Rests on: 43_index_memory.md section 1 (FX29, FX30); 92_eei_decisions.md D12. -/
def Obligations.GlyphAddressesAreSet : Prop :=
  ∀ (x : Reg) (s : State),
    (∃ t : State, exec (.ldF x) s = .next t ∧ t.i.toNat = 5 * (s.reg x).toNat ∧ t.pc = s.pc + 2 ∧
      KeepsAllBut [.i, .pc] s t) ∧
    (∃ t : State, exec (.ldHf x) s = .next t ∧ t.i.toNat = 0x50 + 10 * (s.reg x).toNat ∧ t.pc = s.pc + 2 ∧
      KeepsAllBut [.i, .pc] s t)

/-- For every state with I + 2 at most 0xFFF, FX33 gives a next state in which the bytes at I, I + 1 and I + 2 are the three
decimal digits of V[X], the hundreds at most 2, every other byte reads as before, PC = pc0 + 2 and all else, I among it, as
before.
Rests on: 43_index_memory.md section 2 (FX33); 92_eei_decisions.md D11. -/
def Obligations.DecimalDigitsAreStored : Prop :=
  ∀ (x : Reg) (s : State), s.i.toNat + 2 ≤ 0xFFF → ∃ t : State, exec (.ldB x) s = .next t ∧
    (t.readByte s.i.toNat).toNat = (s.reg x).toNat / 100 ∧
    (t.readByte (s.i.toNat + 1)).toNat = (s.reg x).toNat / 10 % 10 ∧
    (t.readByte (s.i.toNat + 2)).toNat = (s.reg x).toNat % 10 ∧ (t.readByte s.i.toNat).toNat ≤ 2 ∧
    (∀ a : Nat, a < s.i.toNat ∨ s.i.toNat + 2 < a → t.readByte a = s.readByte a) ∧
    t.pc = s.pc + 2 ∧ KeepsAllBut [.mem, .pc] s t

/-- For every state with I + X at most 0xFFF, FX55 gives a next state in which the byte at I + j is V[j] for each j up to X and
every other byte reads as before; I is unchanged in extended mode and otherwise raised by X + 1, X or 0 as LS_INC_STD says;
PC = pc0 + 2 and all else, every register among it, as before.
Rests on: 43_index_memory.md section 2 (FX55); 43_index_memory.md section 4 (Index post-increment); 92_eei_decisions.md D10. -/
def Obligations.StoreRegistersWritesThemInOrder : Prop :=
  ∀ (x : Reg) (s : State), s.i.toNat + x.val ≤ 0xFFF → ∃ t : State, exec (.stRegs x) s = .next t ∧
    (∀ j : Reg, j.val ≤ x.val → t.readByte (s.i.toNat + j.val) = s.reg j) ∧
    (∀ a : Nat, a < s.i.toNat ∨ s.i.toNat + x.val < a → t.readByte a = s.readByte a) ∧
    t.i.toNat = s.i.toNat + (if s.ext = true then 0 else match s.params.lsIncStd with
      | .xPlus1 => x.val + 1
      | .x => x.val
      | .none => 0) ∧
    t.pc = s.pc + 2 ∧ KeepsAllBut [.mem, .i, .pc] s t

/-- For every state with I + X at most 0xFFF, FX65 gives a next state in which V[j] is the byte at I + j for each j up to X and
every other register is as before; I changes as under FX55; PC = pc0 + 2 and all else, every byte of memory among it, as
before.
Rests on: 43_index_memory.md section 2 (FX65); 43_index_memory.md section 4 (Index post-increment); 92_eei_decisions.md D10. -/
def Obligations.LoadRegistersReadsThemInOrder : Prop :=
  ∀ (x : Reg) (s : State), s.i.toNat + x.val ≤ 0xFFF → ∃ t : State, exec (.ldRegs x) s = .next t ∧
    (∀ j : Reg, t.reg j = (if j.val ≤ x.val then s.readByte (s.i.toNat + j.val) else s.reg j)) ∧
    t.i.toNat = s.i.toNat + (if s.ext = true then 0 else match s.params.lsIncStd with
      | .xPlus1 => x.val + 1
      | .x => x.val
      | .none => 0) ∧
    t.pc = s.pc + 2 ∧ KeepsAllBut [.v, .i, .pc] s t

/-- For every state: FX33 with I + 2 above 0xFFF, and FX55 and FX65 with I + X above 0xFFF, answer the refusal MemOutOfRange.
Rests on: 43_index_memory.md section 2 (Memory transfers); 20_memory.md section 2; 92_eei_decisions.md D2. -/
def Obligations.MemoryTransfersPastTheTopAreRefused : Prop :=
  ∀ (x : Reg) (s : State),
    (0xFFF < s.i.toNat + 2 → exec (.ldB x) s = .refused .memOutOfRange) ∧
    (0xFFF < s.i.toNat + x.val →
      exec (.stRegs x) s = .refused .memOutOfRange ∧ exec (.ldRegs x) s = .refused .memOutOfRange)

/-- For every state and X at most 7: FX75 gives a next state with uflag[j] = V[j] for each j up to X and the other flags as
before; FX85 one with V[j] = uflag[j] for each j up to X and the other registers as before; PC = pc0 + 2 and all else, I
among it, as before.
Rests on: 43_index_memory.md section 3 (User flags); 92_eei_decisions.md D19, D20. -/
def Obligations.UserFlagsAreStoredAndLoaded : Prop :=
  ∀ (x : Reg) (s : State), x.val ≤ 7 →
    (∃ t : State, exec (.stFlags x) s = .next t ∧
      (∀ j : Fin 8, t.uflag[j] = (if j.val ≤ x.val then s.reg ⟨j.val, by omega⟩ else s.uflag[j])) ∧
      t.pc = s.pc + 2 ∧ KeepsAllBut [.uflag, .pc] s t) ∧
    (∃ t : State, exec (.ldFlags x) s = .next t ∧
      (∀ j : Fin 8, j.val ≤ x.val → t.reg ⟨j.val, by omega⟩ = s.uflag[j]) ∧
      (∀ r : Reg, x.val < r.val → t.reg r = s.reg r) ∧ t.pc = s.pc + 2 ∧ KeepsAllBut [.v, .pc] s t)

/-- For every state and X above 7, FX75 and FX85 answer the refusal UserFlagIndexOutOfRange.
Rests on: 43_index_memory.md section 3 (User flags); 92_eei_decisions.md D20. -/
def Obligations.UserFlagIndexAboveSevenIsRefused : Prop :=
  ∀ (x : Reg) (s : State), 7 < x.val →
    exec (.stFlags x) s = .refused .userFlagIndexOutOfRange ∧ exec (.ldFlags x) s = .refused .userFlagIndexOutOfRange

/-- For every state: with V[X] = k at most 15, EX9E gives a next state with PC = pc0 + 4 if key k is down and else pc0 + 2, EXA1
the other way round, and nothing but PC changes; with V[X] above 15 both answer the refusal KeyIndexOutOfRange.
Rests on: 44_keypad_timers.md section 1 and section 2; 92_eei_decisions.md D23. -/
def Obligations.KeySkipsTestTheKeyOfVx : Prop :=
  ∀ (x : Reg) (s : State),
    (∀ k : Fin 16, (s.reg x).toNat = k.val →
      (∃ t : State, exec (.skp x) s = .next t ∧ t.pc = (if s.key[k] = true then s.pc + 4 else s.pc + 2) ∧
        KeepsAllBut [.pc] s t) ∧
      (∃ t : State, exec (.sknp x) s = .next t ∧ t.pc = (if s.key[k] = true then s.pc + 2 else s.pc + 4) ∧
        KeepsAllBut [.pc] s t)) ∧
    (15 < (s.reg x).toNat →
      exec (.skp x) s = .refused .keyIndexOutOfRange ∧ exec (.sknp x) s = .refused .keyIndexOutOfRange)

/-- For every state: if key k is down and every lower key is up, FX0A gives a next state with V[X] = k, every other register as
before, PC = pc0 + 2 and all else as before; if every key is up it gives the same state again.
Rests on: 44_keypad_timers.md section 4 (Wait for key); 92_eei_decisions.md D24. -/
def Obligations.WaitForKeyPolls : Prop :=
  ∀ (x : Reg) (s : State),
    (∀ k : Fin 16, s.key[k] = true → (∀ j : Fin 16, j.val < k.val → s.key[j] = false) →
      ∃ t : State, exec (.ldVxK x) s = .next t ∧ RegResult x (BitVec.ofNat 8 k.val) s t) ∧
    ((∀ k : Fin 16, s.key[k] = false) → exec (.ldVxK x) s = .next s)

/-- The opcodes FX07 and FX15 decode to their instructions with X their field; for every state FX07 gives a next state with V[X]
= DT and every other register as before, FX15 one with DT = V[X], PC = pc0 + 2 and all else as before; after FX15 of 0 a tick
leaves DT at 0; tick() lowers DT by 1 unless it is 0.
Rests on: R28; R203; R204. -/
def Obligations.DelayTimerIsReadAndWritten : Prop :=
  (∀ op : Word, (op &&& 0xF0FF = 0xF007 → decode op = .ok (.ldVxDt (op.extractLsb' 8 4).toFin)) ∧
      (op &&& 0xF0FF = 0xF015 → decode op = .ok (.ldDtVx (op.extractLsb' 8 4).toFin))) ∧
    (∀ (x : Reg) (s : State),
      (∃ t : State, exec (.ldVxDt x) s = .next t ∧ RegResult x s.dt s t) ∧
      (∃ t : State, exec (.ldDtVx x) s = .next t ∧ t.dt = s.reg x ∧ (s.reg x = 0 → t.tick.dt = 0) ∧ t.pc = s.pc + 2 ∧
        KeepsAllBut [.dt, .pc] s t)) ∧
    (∀ s : State, s.tick.dt.toNat = s.dt.toNat - 1)

/-- For every state, after tick() DT and ST are each one lower, or 0 if they were 0, and every other component is as before.
Rests on: R232. -/
def Obligations.TickCountsBothTimersDown : Prop :=
  ∀ s : State, s.tick.dt.toNat = s.dt.toNat - 1 ∧ s.tick.st.toNat = s.st.toNat - 1 ∧ KeepsAllBut [.dt, .st] s s.tick

/-- For every state, k from 0 to 15 and p, after update_key(k, p) key k is p, every other key is as before and every other
component is as before; with V[X] = k, EX9E then skips exactly when p holds and EXA1 exactly when it does not; and if p holds
FX0A goes on with a key index of at most k.
Rests on: 60_exceptions.md section 8 (Keypad input); 44_keypad_timers.md sections 1, 2 and 4; 92_eei_decisions.md D23, D24. -/
def Obligations.KeyUpdateSetsTheKeyInstructionsRead : Prop :=
  ∀ (s : State) (k : Fin 16) (p : Bool),
    (∀ j : Fin 16, (s.updateKey k p).key[j] = (if j = k then p else s.key[j])) ∧ KeepsAllBut [.key] s (s.updateKey k p) ∧
    (∀ x : Reg, (s.reg x).toNat = k.val →
      (∃ t : State, exec (.skp x) (s.updateKey k p) = .next t ∧ t.pc = (if p = true then s.pc + 4 else s.pc + 2)) ∧
      (∃ t : State, exec (.sknp x) (s.updateKey k p) = .next t ∧ t.pc = (if p = true then s.pc + 2 else s.pc + 4))) ∧
    (p = true → ∀ x : Reg, ∃ t : State, exec (.ldVxK x) (s.updateKey k p) = .next t ∧ t.pc = s.pc + 2 ∧
      (t.reg x).toNat ≤ k.val)

/-- For every state: a readable image of at most 0xE00 bytes is copied to 0x200 onward, every other byte and every other
component staying as before; a longer one is refused ImageTooLarge and an unreadable one answers a load error, neither
writing a byte.
Rests on: 70_reset_and_hazards.md section 2 (Program load); 92_eei_decisions.md D29. -/
def Obligations.LoadProgramCopiesTheImage : Prop :=
  ∀ s : State,
    (∀ bytes : List Byte, bytes.length ≤ 0xE00 → ∃ t : State, s.loadProgram (some bytes) = .ok t ∧
      (∀ j : Nat, ∀ h : j < bytes.length, t.readByte (0x200 + j) = bytes[j]) ∧
      (∀ a : Nat, a < 0x200 ∨ 0x200 + bytes.length ≤ a → t.readByte a = s.readByte a) ∧ KeepsAllBut [.mem] s t) ∧
    (∀ bytes : List Byte, 0xE00 < bytes.length → s.loadProgram (some bytes) = .refused .imageTooLarge ∧
      KeepsAllBut [.status] s (s.afterLoad (s.loadProgram (some bytes)))) ∧
    (s.loadProgram none = .loadError ∧ s.afterLoad (s.loadProgram none) = s)
end

