-- ==== Sys2Proof/Laws/Decode.lean ====
section
/-! SUPPORT. The fields of a packed opcode, an opcode from its fields, and the two bytes of an opcode. -/

namespace Sys2Proof

variable (n1 n : Nibble) (x y : Reg) (nn : Byte) (nnn : Addr12) (op : Word)

theorem nibble_of_fieldX : (BitVec.ofFin (fieldX op) : Nibble) = op.extractLsb' 8 4 := rfl

theorem nibble_of_fieldY : (BitVec.ofFin (fieldY op) : Nibble) = op.extractLsb' 4 4 := rfl

/-! ### Format `oNNN` -/

@[simp] theorem fieldN1_packNNN : fieldN1 (packNNN n1 nnn) = n1 := by
  apply BitVec.eq_of_getLsbD_eq; intro j hj
  simp [fieldN1, packNNN]
  grind

@[simp] theorem fieldNNN_packNNN : fieldNNN (packNNN n1 nnn) = nnn := by
  apply BitVec.eq_of_getLsbD_eq; intro j hj
  simp [fieldNNN, packNNN]
  grind

/-! ### Format `oXNN` -/

@[simp] theorem fieldN1_packXNN : fieldN1 (packXNN n1 x nn) = n1 := by
  unfold fieldN1 packXNN
  generalize (BitVec.ofFin x : Nibble) = a
  apply BitVec.eq_of_getLsbD_eq; intro j hj
  simp
  grind

@[simp] theorem fieldX_packXNN : fieldX (packXNN n1 x nn) = x := by
  have (a : Nibble) : (n1 ++ a ++ nn).extractLsb' 8 4 = a := by
    apply BitVec.eq_of_getLsbD_eq; intro j hj
    simp
    grind
  rw [fieldX, packXNN, this]

@[simp] theorem fieldNN_packXNN : fieldNN (packXNN n1 x nn) = nn := by
  unfold fieldNN packXNN
  generalize (BitVec.ofFin x : Nibble) = a
  apply BitVec.eq_of_getLsbD_eq; intro j hj
  simp
  grind

/-! ### Format `oXYN` -/

@[simp] theorem fieldN1_packXYN : fieldN1 (packXYN n1 x y n) = n1 := by
  unfold fieldN1 packXYN
  generalize (BitVec.ofFin x : Nibble) = a
  generalize (BitVec.ofFin y : Nibble) = b
  apply BitVec.eq_of_getLsbD_eq; intro j hj
  simp
  grind

@[simp] theorem fieldX_packXYN : fieldX (packXYN n1 x y n) = x := by
  have (a b : Nibble) : (n1 ++ a ++ b ++ n).extractLsb' 8 4 = a := by
    apply BitVec.eq_of_getLsbD_eq; intro j hj
    simp
    grind
  rw [fieldX, packXYN, this]

@[simp] theorem fieldY_packXYN : fieldY (packXYN n1 x y n) = y := by
  have (a b : Nibble) : (n1 ++ a ++ b ++ n).extractLsb' 4 4 = b := by
    apply BitVec.eq_of_getLsbD_eq; intro j hj
    simp
    grind
  rw [fieldY, packXYN, this]

@[simp] theorem fieldN_packXYN : fieldN (packXYN n1 x y n) = n := by
  unfold fieldN packXYN
  generalize (BitVec.ofFin x : Nibble) = a
  generalize (BitVec.ofFin y : Nibble) = b
  apply BitVec.eq_of_getLsbD_eq; intro j hj
  simp
  grind

/-! ### An opcode from its fields -/

theorem packNNN_fields : packNNN (fieldN1 op) (fieldNNN op) = op := by
  unfold fieldN1 fieldNNN packNNN
  apply BitVec.eq_of_getLsbD_eq; intro j hj
  rw [BitVec.getLsbD_append]
  split <;> simp <;> grind

theorem packXNN_fields : packXNN (fieldN1 op) (fieldX op) (fieldNN op) = op := by
  rw [packXNN, nibble_of_fieldX]
  unfold fieldN1 fieldNN
  apply BitVec.eq_of_getLsbD_eq; intro j hj
  grind

theorem packXYN_fields : packXYN (fieldN1 op) (fieldX op) (fieldY op) (fieldN op) = op := by
  rw [packXYN, nibble_of_fieldX, nibble_of_fieldY]
  unfold fieldN1 fieldN
  apply BitVec.eq_of_getLsbD_eq; intro j hj
  grind

/-! ### The bytes of an opcode (20_memory.md R52) -/

theorem opcodeOfBytes_bytesOfOpcode : opcodeOfBytes (op.extractLsb' 8 8) (op.extractLsb' 0 8) = op := by
  unfold opcodeOfBytes
  apply BitVec.eq_of_getLsbD_eq; intro j hj
  grind

theorem decodeBytes_bytesOfOpcode (rest : List Byte) :
    decodeBytes (bytesOfOpcode op ++ rest) = (decode op).map fun i => (i, rest) := by
  simp only [bytesOfOpcode, List.cons_append, List.nil_append, decodeBytes, opcodeOfBytes_bytesOfOpcode]

end Sys2Proof
end

