-- ==== Sys2Proof/Laws/State.lean ====
section
/-! SUPPORT. What each update does to each field of the state, once and for all, so that no proof unfolds a record update; and what
`reg` and `readByte` see of it. -/

namespace Sys2Proof.Machine

section
variable (s : State)

/-! ### setV -/

@[simp] theorem State.setV_v (a : Vector Byte 16) : (s.setV a).v = a := rfl
@[simp] theorem State.setV_i (a : Vector Byte 16) : (s.setV a).i = s.i := rfl
@[simp] theorem State.setV_pc (a : Vector Byte 16) : (s.setV a).pc = s.pc := rfl
@[simp] theorem State.setV_sp (a : Vector Byte 16) : (s.setV a).sp = s.sp := rfl
@[simp] theorem State.setV_stack (a : Vector Byte 16) : (s.setV a).stack = s.stack := rfl
@[simp] theorem State.setV_dt (a : Vector Byte 16) : (s.setV a).dt = s.dt := rfl
@[simp] theorem State.setV_st (a : Vector Byte 16) : (s.setV a).st = s.st := rfl
@[simp] theorem State.setV_key (a : Vector Byte 16) : (s.setV a).key = s.key := rfl
@[simp] theorem State.setV_ext (a : Vector Byte 16) : (s.setV a).ext = s.ext := rfl
@[simp] theorem State.setV_uflag (a : Vector Byte 16) : (s.setV a).uflag = s.uflag := rfl
@[simp] theorem State.setV_mem (a : Vector Byte 16) : (s.setV a).mem = s.mem := rfl
@[simp] theorem State.setV_fb (a : Vector Byte 16) : (s.setV a).fb = s.fb := rfl
@[simp] theorem State.setV_draw (a : Vector Byte 16) : (s.setV a).draw = s.draw := rfl
@[simp] theorem State.setV_status (a : Vector Byte 16) : (s.setV a).status = s.status := rfl
@[simp] theorem State.setV_params (a : Vector Byte 16) : (s.setV a).params = s.params := rfl
@[simp] theorem State.setV_rngCount (a : Vector Byte 16) : (s.setV a).rngCount = s.rngCount := rfl
@[simp] theorem State.setV_readByte (a : Vector Byte 16) (k : Nat) : (s.setV a).readByte k = s.readByte k := rfl
@[simp] theorem State.setV_dims (a : Vector Byte 16) : (s.setV a).dims = s.dims := rfl

/-! ### setI -/

@[simp] theorem State.setI_v (a : Word) : (s.setI a).v = s.v := rfl
@[simp] theorem State.setI_i (a : Word) : (s.setI a).i = a := rfl
@[simp] theorem State.setI_pc (a : Word) : (s.setI a).pc = s.pc := rfl
@[simp] theorem State.setI_sp (a : Word) : (s.setI a).sp = s.sp := rfl
@[simp] theorem State.setI_stack (a : Word) : (s.setI a).stack = s.stack := rfl
@[simp] theorem State.setI_dt (a : Word) : (s.setI a).dt = s.dt := rfl
@[simp] theorem State.setI_st (a : Word) : (s.setI a).st = s.st := rfl
@[simp] theorem State.setI_key (a : Word) : (s.setI a).key = s.key := rfl
@[simp] theorem State.setI_ext (a : Word) : (s.setI a).ext = s.ext := rfl
@[simp] theorem State.setI_uflag (a : Word) : (s.setI a).uflag = s.uflag := rfl
@[simp] theorem State.setI_mem (a : Word) : (s.setI a).mem = s.mem := rfl
@[simp] theorem State.setI_fb (a : Word) : (s.setI a).fb = s.fb := rfl
@[simp] theorem State.setI_draw (a : Word) : (s.setI a).draw = s.draw := rfl
@[simp] theorem State.setI_status (a : Word) : (s.setI a).status = s.status := rfl
@[simp] theorem State.setI_params (a : Word) : (s.setI a).params = s.params := rfl
@[simp] theorem State.setI_rngCount (a : Word) : (s.setI a).rngCount = s.rngCount := rfl
@[simp] theorem State.setI_reg (a : Word) (r : Reg) : (s.setI a).reg r = s.reg r := rfl
@[simp] theorem State.setI_readByte (a : Word) (k : Nat) : (s.setI a).readByte k = s.readByte k := rfl
@[simp] theorem State.setI_dims (a : Word) : (s.setI a).dims = s.dims := rfl

/-! ### setPc -/

@[simp] theorem State.setPc_v (a : Word) : (s.setPc a).v = s.v := rfl
@[simp] theorem State.setPc_i (a : Word) : (s.setPc a).i = s.i := rfl
@[simp] theorem State.setPc_pc (a : Word) : (s.setPc a).pc = a := rfl
@[simp] theorem State.setPc_sp (a : Word) : (s.setPc a).sp = s.sp := rfl
@[simp] theorem State.setPc_stack (a : Word) : (s.setPc a).stack = s.stack := rfl
@[simp] theorem State.setPc_dt (a : Word) : (s.setPc a).dt = s.dt := rfl
@[simp] theorem State.setPc_st (a : Word) : (s.setPc a).st = s.st := rfl
@[simp] theorem State.setPc_key (a : Word) : (s.setPc a).key = s.key := rfl
@[simp] theorem State.setPc_ext (a : Word) : (s.setPc a).ext = s.ext := rfl
@[simp] theorem State.setPc_uflag (a : Word) : (s.setPc a).uflag = s.uflag := rfl
@[simp] theorem State.setPc_mem (a : Word) : (s.setPc a).mem = s.mem := rfl
@[simp] theorem State.setPc_fb (a : Word) : (s.setPc a).fb = s.fb := rfl
@[simp] theorem State.setPc_draw (a : Word) : (s.setPc a).draw = s.draw := rfl
@[simp] theorem State.setPc_status (a : Word) : (s.setPc a).status = s.status := rfl
@[simp] theorem State.setPc_params (a : Word) : (s.setPc a).params = s.params := rfl
@[simp] theorem State.setPc_rngCount (a : Word) : (s.setPc a).rngCount = s.rngCount := rfl
@[simp] theorem State.setPc_reg (a : Word) (r : Reg) : (s.setPc a).reg r = s.reg r := rfl
@[simp] theorem State.setPc_readByte (a : Word) (k : Nat) : (s.setPc a).readByte k = s.readByte k := rfl
@[simp] theorem State.setPc_dims (a : Word) : (s.setPc a).dims = s.dims := rfl

/-! ### setSp -/

@[simp] theorem State.setSp_v (a : Fin 17) : (s.setSp a).v = s.v := rfl
@[simp] theorem State.setSp_i (a : Fin 17) : (s.setSp a).i = s.i := rfl
@[simp] theorem State.setSp_pc (a : Fin 17) : (s.setSp a).pc = s.pc := rfl
@[simp] theorem State.setSp_sp (a : Fin 17) : (s.setSp a).sp = a := rfl
@[simp] theorem State.setSp_stack (a : Fin 17) : (s.setSp a).stack = s.stack := rfl
@[simp] theorem State.setSp_dt (a : Fin 17) : (s.setSp a).dt = s.dt := rfl
@[simp] theorem State.setSp_st (a : Fin 17) : (s.setSp a).st = s.st := rfl
@[simp] theorem State.setSp_key (a : Fin 17) : (s.setSp a).key = s.key := rfl
@[simp] theorem State.setSp_ext (a : Fin 17) : (s.setSp a).ext = s.ext := rfl
@[simp] theorem State.setSp_uflag (a : Fin 17) : (s.setSp a).uflag = s.uflag := rfl
@[simp] theorem State.setSp_mem (a : Fin 17) : (s.setSp a).mem = s.mem := rfl
@[simp] theorem State.setSp_fb (a : Fin 17) : (s.setSp a).fb = s.fb := rfl
@[simp] theorem State.setSp_draw (a : Fin 17) : (s.setSp a).draw = s.draw := rfl
@[simp] theorem State.setSp_status (a : Fin 17) : (s.setSp a).status = s.status := rfl
@[simp] theorem State.setSp_params (a : Fin 17) : (s.setSp a).params = s.params := rfl
@[simp] theorem State.setSp_rngCount (a : Fin 17) : (s.setSp a).rngCount = s.rngCount := rfl
@[simp] theorem State.setSp_reg (a : Fin 17) (r : Reg) : (s.setSp a).reg r = s.reg r := rfl
@[simp] theorem State.setSp_readByte (a : Fin 17) (k : Nat) : (s.setSp a).readByte k = s.readByte k := rfl
@[simp] theorem State.setSp_dims (a : Fin 17) : (s.setSp a).dims = s.dims := rfl

/-! ### setStack -/

@[simp] theorem State.setStack_v (a : Vector Word 16) : (s.setStack a).v = s.v := rfl
@[simp] theorem State.setStack_i (a : Vector Word 16) : (s.setStack a).i = s.i := rfl
@[simp] theorem State.setStack_pc (a : Vector Word 16) : (s.setStack a).pc = s.pc := rfl
@[simp] theorem State.setStack_sp (a : Vector Word 16) : (s.setStack a).sp = s.sp := rfl
@[simp] theorem State.setStack_stack (a : Vector Word 16) : (s.setStack a).stack = a := rfl
@[simp] theorem State.setStack_dt (a : Vector Word 16) : (s.setStack a).dt = s.dt := rfl
@[simp] theorem State.setStack_st (a : Vector Word 16) : (s.setStack a).st = s.st := rfl
@[simp] theorem State.setStack_key (a : Vector Word 16) : (s.setStack a).key = s.key := rfl
@[simp] theorem State.setStack_ext (a : Vector Word 16) : (s.setStack a).ext = s.ext := rfl
@[simp] theorem State.setStack_uflag (a : Vector Word 16) : (s.setStack a).uflag = s.uflag := rfl
@[simp] theorem State.setStack_mem (a : Vector Word 16) : (s.setStack a).mem = s.mem := rfl
@[simp] theorem State.setStack_fb (a : Vector Word 16) : (s.setStack a).fb = s.fb := rfl
@[simp] theorem State.setStack_draw (a : Vector Word 16) : (s.setStack a).draw = s.draw := rfl
@[simp] theorem State.setStack_status (a : Vector Word 16) : (s.setStack a).status = s.status := rfl
@[simp] theorem State.setStack_params (a : Vector Word 16) : (s.setStack a).params = s.params := rfl
@[simp] theorem State.setStack_rngCount (a : Vector Word 16) : (s.setStack a).rngCount = s.rngCount := rfl
@[simp] theorem State.setStack_reg (a : Vector Word 16) (r : Reg) : (s.setStack a).reg r = s.reg r := rfl
@[simp] theorem State.setStack_readByte (a : Vector Word 16) (k : Nat) : (s.setStack a).readByte k = s.readByte k := rfl
@[simp] theorem State.setStack_dims (a : Vector Word 16) : (s.setStack a).dims = s.dims := rfl

/-! ### setDt -/

@[simp] theorem State.setDt_v (a : Byte) : (s.setDt a).v = s.v := rfl
@[simp] theorem State.setDt_i (a : Byte) : (s.setDt a).i = s.i := rfl
@[simp] theorem State.setDt_pc (a : Byte) : (s.setDt a).pc = s.pc := rfl
@[simp] theorem State.setDt_sp (a : Byte) : (s.setDt a).sp = s.sp := rfl
@[simp] theorem State.setDt_stack (a : Byte) : (s.setDt a).stack = s.stack := rfl
@[simp] theorem State.setDt_dt (a : Byte) : (s.setDt a).dt = a := rfl
@[simp] theorem State.setDt_st (a : Byte) : (s.setDt a).st = s.st := rfl
@[simp] theorem State.setDt_key (a : Byte) : (s.setDt a).key = s.key := rfl
@[simp] theorem State.setDt_ext (a : Byte) : (s.setDt a).ext = s.ext := rfl
@[simp] theorem State.setDt_uflag (a : Byte) : (s.setDt a).uflag = s.uflag := rfl
@[simp] theorem State.setDt_mem (a : Byte) : (s.setDt a).mem = s.mem := rfl
@[simp] theorem State.setDt_fb (a : Byte) : (s.setDt a).fb = s.fb := rfl
@[simp] theorem State.setDt_draw (a : Byte) : (s.setDt a).draw = s.draw := rfl
@[simp] theorem State.setDt_status (a : Byte) : (s.setDt a).status = s.status := rfl
@[simp] theorem State.setDt_params (a : Byte) : (s.setDt a).params = s.params := rfl
@[simp] theorem State.setDt_rngCount (a : Byte) : (s.setDt a).rngCount = s.rngCount := rfl
@[simp] theorem State.setDt_reg (a : Byte) (r : Reg) : (s.setDt a).reg r = s.reg r := rfl
@[simp] theorem State.setDt_readByte (a : Byte) (k : Nat) : (s.setDt a).readByte k = s.readByte k := rfl
@[simp] theorem State.setDt_dims (a : Byte) : (s.setDt a).dims = s.dims := rfl

/-! ### setSt -/

@[simp] theorem State.setSt_v (a : Byte) : (s.setSt a).v = s.v := rfl
@[simp] theorem State.setSt_i (a : Byte) : (s.setSt a).i = s.i := rfl
@[simp] theorem State.setSt_pc (a : Byte) : (s.setSt a).pc = s.pc := rfl
@[simp] theorem State.setSt_sp (a : Byte) : (s.setSt a).sp = s.sp := rfl
@[simp] theorem State.setSt_stack (a : Byte) : (s.setSt a).stack = s.stack := rfl
@[simp] theorem State.setSt_dt (a : Byte) : (s.setSt a).dt = s.dt := rfl
@[simp] theorem State.setSt_st (a : Byte) : (s.setSt a).st = a := rfl
@[simp] theorem State.setSt_key (a : Byte) : (s.setSt a).key = s.key := rfl
@[simp] theorem State.setSt_ext (a : Byte) : (s.setSt a).ext = s.ext := rfl
@[simp] theorem State.setSt_uflag (a : Byte) : (s.setSt a).uflag = s.uflag := rfl
@[simp] theorem State.setSt_mem (a : Byte) : (s.setSt a).mem = s.mem := rfl
@[simp] theorem State.setSt_fb (a : Byte) : (s.setSt a).fb = s.fb := rfl
@[simp] theorem State.setSt_draw (a : Byte) : (s.setSt a).draw = s.draw := rfl
@[simp] theorem State.setSt_status (a : Byte) : (s.setSt a).status = s.status := rfl
@[simp] theorem State.setSt_params (a : Byte) : (s.setSt a).params = s.params := rfl
@[simp] theorem State.setSt_rngCount (a : Byte) : (s.setSt a).rngCount = s.rngCount := rfl
@[simp] theorem State.setSt_reg (a : Byte) (r : Reg) : (s.setSt a).reg r = s.reg r := rfl
@[simp] theorem State.setSt_readByte (a : Byte) (k : Nat) : (s.setSt a).readByte k = s.readByte k := rfl
@[simp] theorem State.setSt_dims (a : Byte) : (s.setSt a).dims = s.dims := rfl

/-! ### setKey -/

@[simp] theorem State.setKey_v (a : Vector Bool 16) : (s.setKey a).v = s.v := rfl
@[simp] theorem State.setKey_i (a : Vector Bool 16) : (s.setKey a).i = s.i := rfl
@[simp] theorem State.setKey_pc (a : Vector Bool 16) : (s.setKey a).pc = s.pc := rfl
@[simp] theorem State.setKey_sp (a : Vector Bool 16) : (s.setKey a).sp = s.sp := rfl
@[simp] theorem State.setKey_stack (a : Vector Bool 16) : (s.setKey a).stack = s.stack := rfl
@[simp] theorem State.setKey_dt (a : Vector Bool 16) : (s.setKey a).dt = s.dt := rfl
@[simp] theorem State.setKey_st (a : Vector Bool 16) : (s.setKey a).st = s.st := rfl
@[simp] theorem State.setKey_key (a : Vector Bool 16) : (s.setKey a).key = a := rfl
@[simp] theorem State.setKey_ext (a : Vector Bool 16) : (s.setKey a).ext = s.ext := rfl
@[simp] theorem State.setKey_uflag (a : Vector Bool 16) : (s.setKey a).uflag = s.uflag := rfl
@[simp] theorem State.setKey_mem (a : Vector Bool 16) : (s.setKey a).mem = s.mem := rfl
@[simp] theorem State.setKey_fb (a : Vector Bool 16) : (s.setKey a).fb = s.fb := rfl
@[simp] theorem State.setKey_draw (a : Vector Bool 16) : (s.setKey a).draw = s.draw := rfl
@[simp] theorem State.setKey_status (a : Vector Bool 16) : (s.setKey a).status = s.status := rfl
@[simp] theorem State.setKey_params (a : Vector Bool 16) : (s.setKey a).params = s.params := rfl
@[simp] theorem State.setKey_rngCount (a : Vector Bool 16) : (s.setKey a).rngCount = s.rngCount := rfl
@[simp] theorem State.setKey_reg (a : Vector Bool 16) (r : Reg) : (s.setKey a).reg r = s.reg r := rfl
@[simp] theorem State.setKey_readByte (a : Vector Bool 16) (k : Nat) : (s.setKey a).readByte k = s.readByte k := rfl
@[simp] theorem State.setKey_dims (a : Vector Bool 16) : (s.setKey a).dims = s.dims := rfl

/-! ### setExt -/

@[simp] theorem State.setExt_v (a : Bool) : (s.setExt a).v = s.v := rfl
@[simp] theorem State.setExt_i (a : Bool) : (s.setExt a).i = s.i := rfl
@[simp] theorem State.setExt_pc (a : Bool) : (s.setExt a).pc = s.pc := rfl
@[simp] theorem State.setExt_sp (a : Bool) : (s.setExt a).sp = s.sp := rfl
@[simp] theorem State.setExt_stack (a : Bool) : (s.setExt a).stack = s.stack := rfl
@[simp] theorem State.setExt_dt (a : Bool) : (s.setExt a).dt = s.dt := rfl
@[simp] theorem State.setExt_st (a : Bool) : (s.setExt a).st = s.st := rfl
@[simp] theorem State.setExt_key (a : Bool) : (s.setExt a).key = s.key := rfl
@[simp] theorem State.setExt_ext (a : Bool) : (s.setExt a).ext = a := rfl
@[simp] theorem State.setExt_uflag (a : Bool) : (s.setExt a).uflag = s.uflag := rfl
@[simp] theorem State.setExt_mem (a : Bool) : (s.setExt a).mem = s.mem := rfl
@[simp] theorem State.setExt_fb (a : Bool) : (s.setExt a).fb = s.fb := rfl
@[simp] theorem State.setExt_draw (a : Bool) : (s.setExt a).draw = s.draw := rfl
@[simp] theorem State.setExt_status (a : Bool) : (s.setExt a).status = s.status := rfl
@[simp] theorem State.setExt_params (a : Bool) : (s.setExt a).params = s.params := rfl
@[simp] theorem State.setExt_rngCount (a : Bool) : (s.setExt a).rngCount = s.rngCount := rfl
@[simp] theorem State.setExt_reg (a : Bool) (r : Reg) : (s.setExt a).reg r = s.reg r := rfl
@[simp] theorem State.setExt_readByte (a : Bool) (k : Nat) : (s.setExt a).readByte k = s.readByte k := rfl

/-! ### setUflag -/

@[simp] theorem State.setUflag_v (a : Vector Byte 8) : (s.setUflag a).v = s.v := rfl
@[simp] theorem State.setUflag_i (a : Vector Byte 8) : (s.setUflag a).i = s.i := rfl
@[simp] theorem State.setUflag_pc (a : Vector Byte 8) : (s.setUflag a).pc = s.pc := rfl
@[simp] theorem State.setUflag_sp (a : Vector Byte 8) : (s.setUflag a).sp = s.sp := rfl
@[simp] theorem State.setUflag_stack (a : Vector Byte 8) : (s.setUflag a).stack = s.stack := rfl
@[simp] theorem State.setUflag_dt (a : Vector Byte 8) : (s.setUflag a).dt = s.dt := rfl
@[simp] theorem State.setUflag_st (a : Vector Byte 8) : (s.setUflag a).st = s.st := rfl
@[simp] theorem State.setUflag_key (a : Vector Byte 8) : (s.setUflag a).key = s.key := rfl
@[simp] theorem State.setUflag_ext (a : Vector Byte 8) : (s.setUflag a).ext = s.ext := rfl
@[simp] theorem State.setUflag_uflag (a : Vector Byte 8) : (s.setUflag a).uflag = a := rfl
@[simp] theorem State.setUflag_mem (a : Vector Byte 8) : (s.setUflag a).mem = s.mem := rfl
@[simp] theorem State.setUflag_fb (a : Vector Byte 8) : (s.setUflag a).fb = s.fb := rfl
@[simp] theorem State.setUflag_draw (a : Vector Byte 8) : (s.setUflag a).draw = s.draw := rfl
@[simp] theorem State.setUflag_status (a : Vector Byte 8) : (s.setUflag a).status = s.status := rfl
@[simp] theorem State.setUflag_params (a : Vector Byte 8) : (s.setUflag a).params = s.params := rfl
@[simp] theorem State.setUflag_rngCount (a : Vector Byte 8) : (s.setUflag a).rngCount = s.rngCount := rfl
@[simp] theorem State.setUflag_reg (a : Vector Byte 8) (r : Reg) : (s.setUflag a).reg r = s.reg r := rfl
@[simp] theorem State.setUflag_readByte (a : Vector Byte 8) (k : Nat) : (s.setUflag a).readByte k = s.readByte k := rfl
@[simp] theorem State.setUflag_dims (a : Vector Byte 8) : (s.setUflag a).dims = s.dims := rfl

/-! ### setMem -/

@[simp] theorem State.setMem_v (a : Memory) : (s.setMem a).v = s.v := rfl
@[simp] theorem State.setMem_i (a : Memory) : (s.setMem a).i = s.i := rfl
@[simp] theorem State.setMem_pc (a : Memory) : (s.setMem a).pc = s.pc := rfl
@[simp] theorem State.setMem_sp (a : Memory) : (s.setMem a).sp = s.sp := rfl
@[simp] theorem State.setMem_stack (a : Memory) : (s.setMem a).stack = s.stack := rfl
@[simp] theorem State.setMem_dt (a : Memory) : (s.setMem a).dt = s.dt := rfl
@[simp] theorem State.setMem_st (a : Memory) : (s.setMem a).st = s.st := rfl
@[simp] theorem State.setMem_key (a : Memory) : (s.setMem a).key = s.key := rfl
@[simp] theorem State.setMem_ext (a : Memory) : (s.setMem a).ext = s.ext := rfl
@[simp] theorem State.setMem_uflag (a : Memory) : (s.setMem a).uflag = s.uflag := rfl
@[simp] theorem State.setMem_mem (a : Memory) : (s.setMem a).mem = a := rfl
@[simp] theorem State.setMem_fb (a : Memory) : (s.setMem a).fb = s.fb := rfl
@[simp] theorem State.setMem_draw (a : Memory) : (s.setMem a).draw = s.draw := rfl
@[simp] theorem State.setMem_status (a : Memory) : (s.setMem a).status = s.status := rfl
@[simp] theorem State.setMem_params (a : Memory) : (s.setMem a).params = s.params := rfl
@[simp] theorem State.setMem_rngCount (a : Memory) : (s.setMem a).rngCount = s.rngCount := rfl
@[simp] theorem State.setMem_reg (a : Memory) (r : Reg) : (s.setMem a).reg r = s.reg r := rfl
@[simp] theorem State.setMem_dims (a : Memory) : (s.setMem a).dims = s.dims := rfl

/-! ### setFb -/

@[simp] theorem State.setFb_v (a : Framebuffer) : (s.setFb a).v = s.v := rfl
@[simp] theorem State.setFb_i (a : Framebuffer) : (s.setFb a).i = s.i := rfl
@[simp] theorem State.setFb_pc (a : Framebuffer) : (s.setFb a).pc = s.pc := rfl
@[simp] theorem State.setFb_sp (a : Framebuffer) : (s.setFb a).sp = s.sp := rfl
@[simp] theorem State.setFb_stack (a : Framebuffer) : (s.setFb a).stack = s.stack := rfl
@[simp] theorem State.setFb_dt (a : Framebuffer) : (s.setFb a).dt = s.dt := rfl
@[simp] theorem State.setFb_st (a : Framebuffer) : (s.setFb a).st = s.st := rfl
@[simp] theorem State.setFb_key (a : Framebuffer) : (s.setFb a).key = s.key := rfl
@[simp] theorem State.setFb_ext (a : Framebuffer) : (s.setFb a).ext = s.ext := rfl
@[simp] theorem State.setFb_uflag (a : Framebuffer) : (s.setFb a).uflag = s.uflag := rfl
@[simp] theorem State.setFb_mem (a : Framebuffer) : (s.setFb a).mem = s.mem := rfl
@[simp] theorem State.setFb_fb (a : Framebuffer) : (s.setFb a).fb = a := rfl
@[simp] theorem State.setFb_draw (a : Framebuffer) : (s.setFb a).draw = s.draw := rfl
@[simp] theorem State.setFb_status (a : Framebuffer) : (s.setFb a).status = s.status := rfl
@[simp] theorem State.setFb_params (a : Framebuffer) : (s.setFb a).params = s.params := rfl
@[simp] theorem State.setFb_rngCount (a : Framebuffer) : (s.setFb a).rngCount = s.rngCount := rfl
@[simp] theorem State.setFb_reg (a : Framebuffer) (r : Reg) : (s.setFb a).reg r = s.reg r := rfl
@[simp] theorem State.setFb_readByte (a : Framebuffer) (k : Nat) : (s.setFb a).readByte k = s.readByte k := rfl
@[simp] theorem State.setFb_dims (a : Framebuffer) : (s.setFb a).dims = s.dims := rfl

/-! ### setDraw -/

@[simp] theorem State.setDraw_v (a : Bool) : (s.setDraw a).v = s.v := rfl
@[simp] theorem State.setDraw_i (a : Bool) : (s.setDraw a).i = s.i := rfl
@[simp] theorem State.setDraw_pc (a : Bool) : (s.setDraw a).pc = s.pc := rfl
@[simp] theorem State.setDraw_sp (a : Bool) : (s.setDraw a).sp = s.sp := rfl
@[simp] theorem State.setDraw_stack (a : Bool) : (s.setDraw a).stack = s.stack := rfl
@[simp] theorem State.setDraw_dt (a : Bool) : (s.setDraw a).dt = s.dt := rfl
@[simp] theorem State.setDraw_st (a : Bool) : (s.setDraw a).st = s.st := rfl
@[simp] theorem State.setDraw_key (a : Bool) : (s.setDraw a).key = s.key := rfl
@[simp] theorem State.setDraw_ext (a : Bool) : (s.setDraw a).ext = s.ext := rfl
@[simp] theorem State.setDraw_uflag (a : Bool) : (s.setDraw a).uflag = s.uflag := rfl
@[simp] theorem State.setDraw_mem (a : Bool) : (s.setDraw a).mem = s.mem := rfl
@[simp] theorem State.setDraw_fb (a : Bool) : (s.setDraw a).fb = s.fb := rfl
@[simp] theorem State.setDraw_draw (a : Bool) : (s.setDraw a).draw = a := rfl
@[simp] theorem State.setDraw_status (a : Bool) : (s.setDraw a).status = s.status := rfl
@[simp] theorem State.setDraw_params (a : Bool) : (s.setDraw a).params = s.params := rfl
@[simp] theorem State.setDraw_rngCount (a : Bool) : (s.setDraw a).rngCount = s.rngCount := rfl
@[simp] theorem State.setDraw_reg (a : Bool) (r : Reg) : (s.setDraw a).reg r = s.reg r := rfl
@[simp] theorem State.setDraw_readByte (a : Bool) (k : Nat) : (s.setDraw a).readByte k = s.readByte k := rfl
@[simp] theorem State.setDraw_dims (a : Bool) : (s.setDraw a).dims = s.dims := rfl

/-! ### setStatus -/

@[simp] theorem State.setStatus_v (a : Status) : (s.setStatus a).v = s.v := rfl
@[simp] theorem State.setStatus_i (a : Status) : (s.setStatus a).i = s.i := rfl
@[simp] theorem State.setStatus_pc (a : Status) : (s.setStatus a).pc = s.pc := rfl
@[simp] theorem State.setStatus_sp (a : Status) : (s.setStatus a).sp = s.sp := rfl
@[simp] theorem State.setStatus_stack (a : Status) : (s.setStatus a).stack = s.stack := rfl
@[simp] theorem State.setStatus_dt (a : Status) : (s.setStatus a).dt = s.dt := rfl
@[simp] theorem State.setStatus_st (a : Status) : (s.setStatus a).st = s.st := rfl
@[simp] theorem State.setStatus_key (a : Status) : (s.setStatus a).key = s.key := rfl
@[simp] theorem State.setStatus_ext (a : Status) : (s.setStatus a).ext = s.ext := rfl
@[simp] theorem State.setStatus_uflag (a : Status) : (s.setStatus a).uflag = s.uflag := rfl
@[simp] theorem State.setStatus_mem (a : Status) : (s.setStatus a).mem = s.mem := rfl
@[simp] theorem State.setStatus_fb (a : Status) : (s.setStatus a).fb = s.fb := rfl
@[simp] theorem State.setStatus_draw (a : Status) : (s.setStatus a).draw = s.draw := rfl
@[simp] theorem State.setStatus_status (a : Status) : (s.setStatus a).status = a := rfl
@[simp] theorem State.setStatus_params (a : Status) : (s.setStatus a).params = s.params := rfl
@[simp] theorem State.setStatus_rngCount (a : Status) : (s.setStatus a).rngCount = s.rngCount := rfl
@[simp] theorem State.setStatus_reg (a : Status) (r : Reg) : (s.setStatus a).reg r = s.reg r := rfl
@[simp] theorem State.setStatus_readByte (a : Status) (k : Nat) : (s.setStatus a).readByte k = s.readByte k := rfl
@[simp] theorem State.setStatus_dims (a : Status) : (s.setStatus a).dims = s.dims := rfl

/-! ### setRngCount -/

@[simp] theorem State.setRngCount_v (a : Nat) : (s.setRngCount a).v = s.v := rfl
@[simp] theorem State.setRngCount_i (a : Nat) : (s.setRngCount a).i = s.i := rfl
@[simp] theorem State.setRngCount_pc (a : Nat) : (s.setRngCount a).pc = s.pc := rfl
@[simp] theorem State.setRngCount_sp (a : Nat) : (s.setRngCount a).sp = s.sp := rfl
@[simp] theorem State.setRngCount_stack (a : Nat) : (s.setRngCount a).stack = s.stack := rfl
@[simp] theorem State.setRngCount_dt (a : Nat) : (s.setRngCount a).dt = s.dt := rfl
@[simp] theorem State.setRngCount_st (a : Nat) : (s.setRngCount a).st = s.st := rfl
@[simp] theorem State.setRngCount_key (a : Nat) : (s.setRngCount a).key = s.key := rfl
@[simp] theorem State.setRngCount_ext (a : Nat) : (s.setRngCount a).ext = s.ext := rfl
@[simp] theorem State.setRngCount_uflag (a : Nat) : (s.setRngCount a).uflag = s.uflag := rfl
@[simp] theorem State.setRngCount_mem (a : Nat) : (s.setRngCount a).mem = s.mem := rfl
@[simp] theorem State.setRngCount_fb (a : Nat) : (s.setRngCount a).fb = s.fb := rfl
@[simp] theorem State.setRngCount_draw (a : Nat) : (s.setRngCount a).draw = s.draw := rfl
@[simp] theorem State.setRngCount_status (a : Nat) : (s.setRngCount a).status = s.status := rfl
@[simp] theorem State.setRngCount_params (a : Nat) : (s.setRngCount a).params = s.params := rfl
@[simp] theorem State.setRngCount_rngCount (a : Nat) : (s.setRngCount a).rngCount = a := rfl
@[simp] theorem State.setRngCount_reg (a : Nat) (r : Reg) : (s.setRngCount a).reg r = s.reg r := rfl
@[simp] theorem State.setRngCount_readByte (a : Nat) (k : Nat) : (s.setRngCount a).readByte k = s.readByte k := rfl
@[simp] theorem State.setRngCount_dims (a : Nat) : (s.setRngCount a).dims = s.dims := rfl

/-! ### setReg -/

@[simp] theorem State.setReg_i (x : Reg) (b : Byte) : (s.setReg x b).i = s.i := rfl
@[simp] theorem State.setReg_pc (x : Reg) (b : Byte) : (s.setReg x b).pc = s.pc := rfl
@[simp] theorem State.setReg_sp (x : Reg) (b : Byte) : (s.setReg x b).sp = s.sp := rfl
@[simp] theorem State.setReg_stack (x : Reg) (b : Byte) : (s.setReg x b).stack = s.stack := rfl
@[simp] theorem State.setReg_dt (x : Reg) (b : Byte) : (s.setReg x b).dt = s.dt := rfl
@[simp] theorem State.setReg_st (x : Reg) (b : Byte) : (s.setReg x b).st = s.st := rfl
@[simp] theorem State.setReg_key (x : Reg) (b : Byte) : (s.setReg x b).key = s.key := rfl
@[simp] theorem State.setReg_ext (x : Reg) (b : Byte) : (s.setReg x b).ext = s.ext := rfl
@[simp] theorem State.setReg_uflag (x : Reg) (b : Byte) : (s.setReg x b).uflag = s.uflag := rfl
@[simp] theorem State.setReg_mem (x : Reg) (b : Byte) : (s.setReg x b).mem = s.mem := rfl
@[simp] theorem State.setReg_fb (x : Reg) (b : Byte) : (s.setReg x b).fb = s.fb := rfl
@[simp] theorem State.setReg_draw (x : Reg) (b : Byte) : (s.setReg x b).draw = s.draw := rfl
@[simp] theorem State.setReg_status (x : Reg) (b : Byte) : (s.setReg x b).status = s.status := rfl
@[simp] theorem State.setReg_params (x : Reg) (b : Byte) : (s.setReg x b).params = s.params := rfl
@[simp] theorem State.setReg_rngCount (x : Reg) (b : Byte) : (s.setReg x b).rngCount = s.rngCount := rfl
@[simp] theorem State.setReg_readByte (x : Reg) (b : Byte) (k : Nat) : (s.setReg x b).readByte k = s.readByte k := rfl
@[simp] theorem State.setReg_dims (x : Reg) (b : Byte) : (s.setReg x b).dims = s.dims := rfl

/-! ### setVF -/

@[simp] theorem State.setVF_i (b : Byte) : (s.setVF b).i = s.i := rfl
@[simp] theorem State.setVF_pc (b : Byte) : (s.setVF b).pc = s.pc := rfl
@[simp] theorem State.setVF_sp (b : Byte) : (s.setVF b).sp = s.sp := rfl
@[simp] theorem State.setVF_stack (b : Byte) : (s.setVF b).stack = s.stack := rfl
@[simp] theorem State.setVF_dt (b : Byte) : (s.setVF b).dt = s.dt := rfl
@[simp] theorem State.setVF_st (b : Byte) : (s.setVF b).st = s.st := rfl
@[simp] theorem State.setVF_key (b : Byte) : (s.setVF b).key = s.key := rfl
@[simp] theorem State.setVF_ext (b : Byte) : (s.setVF b).ext = s.ext := rfl
@[simp] theorem State.setVF_uflag (b : Byte) : (s.setVF b).uflag = s.uflag := rfl
@[simp] theorem State.setVF_mem (b : Byte) : (s.setVF b).mem = s.mem := rfl
@[simp] theorem State.setVF_fb (b : Byte) : (s.setVF b).fb = s.fb := rfl
@[simp] theorem State.setVF_draw (b : Byte) : (s.setVF b).draw = s.draw := rfl
@[simp] theorem State.setVF_status (b : Byte) : (s.setVF b).status = s.status := rfl
@[simp] theorem State.setVF_params (b : Byte) : (s.setVF b).params = s.params := rfl
@[simp] theorem State.setVF_rngCount (b : Byte) : (s.setVF b).rngCount = s.rngCount := rfl
@[simp] theorem State.setVF_readByte (b : Byte) (k : Nat) : (s.setVF b).readByte k = s.readByte k := rfl
@[simp] theorem State.setVF_dims (b : Byte) : (s.setVF b).dims = s.dims := rfl

/-! ### writeResult -/

@[simp] theorem State.writeResult_i (x : Reg) (b : Byte) (c : Bool) : (s.writeResult x b c).i = s.i := rfl
@[simp] theorem State.writeResult_pc (x : Reg) (b : Byte) (c : Bool) : (s.writeResult x b c).pc = s.pc := rfl
@[simp] theorem State.writeResult_sp (x : Reg) (b : Byte) (c : Bool) : (s.writeResult x b c).sp = s.sp := rfl
@[simp] theorem State.writeResult_stack (x : Reg) (b : Byte) (c : Bool) : (s.writeResult x b c).stack = s.stack := rfl
@[simp] theorem State.writeResult_dt (x : Reg) (b : Byte) (c : Bool) : (s.writeResult x b c).dt = s.dt := rfl
@[simp] theorem State.writeResult_st (x : Reg) (b : Byte) (c : Bool) : (s.writeResult x b c).st = s.st := rfl
@[simp] theorem State.writeResult_key (x : Reg) (b : Byte) (c : Bool) : (s.writeResult x b c).key = s.key := rfl
@[simp] theorem State.writeResult_ext (x : Reg) (b : Byte) (c : Bool) : (s.writeResult x b c).ext = s.ext := rfl
@[simp] theorem State.writeResult_uflag (x : Reg) (b : Byte) (c : Bool) : (s.writeResult x b c).uflag = s.uflag := rfl
@[simp] theorem State.writeResult_mem (x : Reg) (b : Byte) (c : Bool) : (s.writeResult x b c).mem = s.mem := rfl
@[simp] theorem State.writeResult_fb (x : Reg) (b : Byte) (c : Bool) : (s.writeResult x b c).fb = s.fb := rfl
@[simp] theorem State.writeResult_draw (x : Reg) (b : Byte) (c : Bool) : (s.writeResult x b c).draw = s.draw := rfl
@[simp] theorem State.writeResult_status (x : Reg) (b : Byte) (c : Bool) : (s.writeResult x b c).status = s.status := rfl
@[simp] theorem State.writeResult_params (x : Reg) (b : Byte) (c : Bool) : (s.writeResult x b c).params = s.params := rfl
@[simp] theorem State.writeResult_rngCount (x : Reg) (b : Byte) (c : Bool) : (s.writeResult x b c).rngCount = s.rngCount := rfl
@[simp] theorem State.writeResult_readByte (x : Reg) (b : Byte) (c : Bool) (k : Nat) : (s.writeResult x b c).readByte k = s.readByte k := rfl
@[simp] theorem State.writeResult_dims (x : Reg) (b : Byte) (c : Bool) : (s.writeResult x b c).dims = s.dims := rfl

/-! ### writeBytes -/

@[simp] theorem State.writeBytes_v (a : Nat) (bs : List Byte) : (s.writeBytes a bs).v = s.v := rfl
@[simp] theorem State.writeBytes_i (a : Nat) (bs : List Byte) : (s.writeBytes a bs).i = s.i := rfl
@[simp] theorem State.writeBytes_pc (a : Nat) (bs : List Byte) : (s.writeBytes a bs).pc = s.pc := rfl
@[simp] theorem State.writeBytes_sp (a : Nat) (bs : List Byte) : (s.writeBytes a bs).sp = s.sp := rfl
@[simp] theorem State.writeBytes_stack (a : Nat) (bs : List Byte) : (s.writeBytes a bs).stack = s.stack := rfl
@[simp] theorem State.writeBytes_dt (a : Nat) (bs : List Byte) : (s.writeBytes a bs).dt = s.dt := rfl
@[simp] theorem State.writeBytes_st (a : Nat) (bs : List Byte) : (s.writeBytes a bs).st = s.st := rfl
@[simp] theorem State.writeBytes_key (a : Nat) (bs : List Byte) : (s.writeBytes a bs).key = s.key := rfl
@[simp] theorem State.writeBytes_ext (a : Nat) (bs : List Byte) : (s.writeBytes a bs).ext = s.ext := rfl
@[simp] theorem State.writeBytes_uflag (a : Nat) (bs : List Byte) : (s.writeBytes a bs).uflag = s.uflag := rfl
@[simp] theorem State.writeBytes_fb (a : Nat) (bs : List Byte) : (s.writeBytes a bs).fb = s.fb := rfl
@[simp] theorem State.writeBytes_draw (a : Nat) (bs : List Byte) : (s.writeBytes a bs).draw = s.draw := rfl
@[simp] theorem State.writeBytes_status (a : Nat) (bs : List Byte) : (s.writeBytes a bs).status = s.status := rfl
@[simp] theorem State.writeBytes_params (a : Nat) (bs : List Byte) : (s.writeBytes a bs).params = s.params := rfl
@[simp] theorem State.writeBytes_rngCount (a : Nat) (bs : List Byte) : (s.writeBytes a bs).rngCount = s.rngCount := rfl
@[simp] theorem State.writeBytes_reg (a : Nat) (bs : List Byte) (r : Reg) : (s.writeBytes a bs).reg r = s.reg r := rfl
@[simp] theorem State.writeBytes_dims (a : Nat) (bs : List Byte) : (s.writeBytes a bs).dims = s.dims := rfl

/-! ### bumpI -/

@[simp] theorem State.bumpI_v (x : Reg) : (s.bumpI x).v = s.v := rfl
@[simp] theorem State.bumpI_pc (x : Reg) : (s.bumpI x).pc = s.pc := rfl
@[simp] theorem State.bumpI_sp (x : Reg) : (s.bumpI x).sp = s.sp := rfl
@[simp] theorem State.bumpI_stack (x : Reg) : (s.bumpI x).stack = s.stack := rfl
@[simp] theorem State.bumpI_dt (x : Reg) : (s.bumpI x).dt = s.dt := rfl
@[simp] theorem State.bumpI_st (x : Reg) : (s.bumpI x).st = s.st := rfl
@[simp] theorem State.bumpI_key (x : Reg) : (s.bumpI x).key = s.key := rfl
@[simp] theorem State.bumpI_ext (x : Reg) : (s.bumpI x).ext = s.ext := rfl
@[simp] theorem State.bumpI_uflag (x : Reg) : (s.bumpI x).uflag = s.uflag := rfl
@[simp] theorem State.bumpI_mem (x : Reg) : (s.bumpI x).mem = s.mem := rfl
@[simp] theorem State.bumpI_fb (x : Reg) : (s.bumpI x).fb = s.fb := rfl
@[simp] theorem State.bumpI_draw (x : Reg) : (s.bumpI x).draw = s.draw := rfl
@[simp] theorem State.bumpI_status (x : Reg) : (s.bumpI x).status = s.status := rfl
@[simp] theorem State.bumpI_params (x : Reg) : (s.bumpI x).params = s.params := rfl
@[simp] theorem State.bumpI_rngCount (x : Reg) : (s.bumpI x).rngCount = s.rngCount := rfl
@[simp] theorem State.bumpI_reg (x : Reg) (r : Reg) : (s.bumpI x).reg r = s.reg r := rfl
@[simp] theorem State.bumpI_readByte (x : Reg) (k : Nat) : (s.bumpI x).readByte k = s.readByte k := rfl
@[simp] theorem State.bumpI_dims (x : Reg) : (s.bumpI x).dims = s.dims := rfl

/-! ### advance -/

@[simp] theorem State.advance_v : (s.advance).v = s.v := rfl
@[simp] theorem State.advance_i : (s.advance).i = s.i := rfl
@[simp] theorem State.advance_sp : (s.advance).sp = s.sp := rfl
@[simp] theorem State.advance_stack : (s.advance).stack = s.stack := rfl
@[simp] theorem State.advance_dt : (s.advance).dt = s.dt := rfl
@[simp] theorem State.advance_st : (s.advance).st = s.st := rfl
@[simp] theorem State.advance_key : (s.advance).key = s.key := rfl
@[simp] theorem State.advance_ext : (s.advance).ext = s.ext := rfl
@[simp] theorem State.advance_uflag : (s.advance).uflag = s.uflag := rfl
@[simp] theorem State.advance_mem : (s.advance).mem = s.mem := rfl
@[simp] theorem State.advance_fb : (s.advance).fb = s.fb := rfl
@[simp] theorem State.advance_draw : (s.advance).draw = s.draw := rfl
@[simp] theorem State.advance_status : (s.advance).status = s.status := rfl
@[simp] theorem State.advance_params : (s.advance).params = s.params := rfl
@[simp] theorem State.advance_rngCount : (s.advance).rngCount = s.rngCount := rfl
@[simp] theorem State.advance_reg (r : Reg) : (s.advance).reg r = s.reg r := rfl
@[simp] theorem State.advance_readByte (k : Nat) : (s.advance).readByte k = s.readByte k := rfl
@[simp] theorem State.advance_dims : (s.advance).dims = s.dims := rfl

/-! ### skipIf -/

@[simp] theorem State.skipIf_v (c : Bool) : (s.skipIf c).v = s.v := rfl
@[simp] theorem State.skipIf_i (c : Bool) : (s.skipIf c).i = s.i := rfl
@[simp] theorem State.skipIf_sp (c : Bool) : (s.skipIf c).sp = s.sp := rfl
@[simp] theorem State.skipIf_stack (c : Bool) : (s.skipIf c).stack = s.stack := rfl
@[simp] theorem State.skipIf_dt (c : Bool) : (s.skipIf c).dt = s.dt := rfl
@[simp] theorem State.skipIf_st (c : Bool) : (s.skipIf c).st = s.st := rfl
@[simp] theorem State.skipIf_key (c : Bool) : (s.skipIf c).key = s.key := rfl
@[simp] theorem State.skipIf_ext (c : Bool) : (s.skipIf c).ext = s.ext := rfl
@[simp] theorem State.skipIf_uflag (c : Bool) : (s.skipIf c).uflag = s.uflag := rfl
@[simp] theorem State.skipIf_mem (c : Bool) : (s.skipIf c).mem = s.mem := rfl
@[simp] theorem State.skipIf_fb (c : Bool) : (s.skipIf c).fb = s.fb := rfl
@[simp] theorem State.skipIf_draw (c : Bool) : (s.skipIf c).draw = s.draw := rfl
@[simp] theorem State.skipIf_status (c : Bool) : (s.skipIf c).status = s.status := rfl
@[simp] theorem State.skipIf_params (c : Bool) : (s.skipIf c).params = s.params := rfl
@[simp] theorem State.skipIf_rngCount (c : Bool) : (s.skipIf c).rngCount = s.rngCount := rfl
@[simp] theorem State.skipIf_reg (c : Bool) (r : Reg) : (s.skipIf c).reg r = s.reg r := rfl
@[simp] theorem State.skipIf_readByte (c : Bool) (k : Nat) : (s.skipIf c).readByte k = s.readByte k := rfl
@[simp] theorem State.skipIf_dims (c : Bool) : (s.skipIf c).dims = s.dims := rfl

/-! ### What the compound updates write -/

@[simp] theorem State.advance_pc : s.advance.pc = s.pc + 2 := rfl

@[simp] theorem State.skipIf_pc (c : Bool) : (s.skipIf c).pc = if c then s.pc + 4 else s.pc + 2 := rfl

@[simp] theorem State.bumpI_i (x : Reg) : (s.bumpI x).i = BitVec.ofNat 16 (s.i.toNat + s.indexInc x) := rfl

@[simp] theorem State.writeBytes_mem (a : Nat) (bs : List Byte) :
    (s.writeBytes a bs).mem = Memory.writeList s.params.resetByte s.mem a bs := rfl

/-- A register write is read back, and no other register changes. -/
theorem State.setReg_reg (x : Reg) (b : Byte) (r : Reg) : (s.setReg x b).reg r = if r = x then b else s.reg r := by
  simp only [State.reg, State.setReg, State.setV, Fin.getElem_fin, Vector.getElem_set, Fin.ext_iff, eq_comm]

@[simp] theorem State.setReg_reg_same (x : Reg) (b : Byte) : (s.setReg x b).reg x = b := by
  simp [State.setReg_reg]

theorem State.setReg_reg_other {x r : Reg} (b : Byte) (h : r ≠ x) : (s.setReg x b).reg r = s.reg r := by
  simp [State.setReg_reg, h]

theorem State.setVF_reg (b : Byte) (r : Reg) : (s.setVF b).reg r = if r = vf then b else s.reg r :=
  s.setReg_reg vf b r

@[simp] theorem State.setVF_reg_vf (b : Byte) : (s.setVF b).reg vf = b := s.setReg_reg_same vf b

/-- The result, then VF: the flag wins when X is 0xF (42_alu.md R141). -/
theorem State.writeResult_reg (x : Reg) (b : Byte) (c : Bool) (r : Reg) :
    (s.writeResult x b c).reg r = if r = vf then flagByte c else if r = x then b else s.reg r := by
  simp only [State.writeResult, State.setVF_reg, State.setReg_reg]

@[simp] theorem State.drawByte_fst : s.drawByte.1 = Config.rng s.rngCount := rfl

@[simp] theorem State.drawByte_snd : s.drawByte.2 = s.setRngCount (s.rngCount + 1) := rfl

end

end Sys2Proof.Machine
end

