-- ==== Sys2Proof/Laws/Framebuffer.lean ====
section
/-! SUPPORT. The laws of the framebuffer: what flipping, drawing and scrolling do to each cell, and that they keep the canonical
form. -/

namespace Sys2Proof.Machine

theorem Framebuffer.lit_iff (fb : Framebuffer) (c : Nat) : Framebuffer.lit fb c = true ↔ c ∈ fb := by
  simp [Framebuffer.lit]

theorem Framebuffer.lit_eq (fb : Framebuffer) (c : Nat) : Framebuffer.lit fb c = decide (c ∈ fb) := by
  rw [Bool.eq_iff_iff]; simp [Framebuffer.lit]

@[simp] theorem Framebuffer.lit_nil (c : Nat) : Framebuffer.lit [] c = false := rfl

theorem Framebuffer.wf_iff (fb : Framebuffer) : Framebuffer.wf fb = true ↔
    fb.Pairwise (fun c k => c < k) ∧ ∀ c ∈ fb, c < fbCells := by
  simp [Framebuffer.wf]

theorem Framebuffer.wf_nil : Framebuffer.wf [] = true := by simp [Framebuffer.wf]

/-! ### Flipping and drawing (40_display.md R107) -/

theorem Framebuffer.mem_flip {fb : Framebuffer} (h : fb.Pairwise (fun c k => c < k)) (c k : Nat) :
    k ∈ Framebuffer.flip fb c ↔ (k ∈ fb ↔ k ≠ c) := by
  induction fb with
  | nil => simp [Framebuffer.flip]
  | cons j fb ih =>
    rw [List.pairwise_cons] at h
    simp only [Framebuffer.flip]
    split
    · have hc : c ∉ j :: fb := by
        intro hc
        rcases List.mem_cons.1 hc with rfl | hc
        · omega
        · have := h.1 c hc; omega
      simp only [List.mem_cons (a := k) (b := c)]
      by_cases hk : k = c
      · subst hk; simp [hc]
      · simp [hk]
    · split
      · subst_vars
        have hc : j ∉ fb := fun hc => by have := h.1 j hc; omega
        by_cases hk : k = j
        · subst hk; simp [hc]
        · simp [hk]
      · simp only [List.mem_cons, ih h.2]
        by_cases hk : k = j
        · subst hk; simp; omega
        · simp [hk]

/-- A flip changes its own cell only. -/
theorem Framebuffer.lit_flip {fb : Framebuffer} (h : fb.Pairwise (fun c k => c < k)) (c k : Nat) :
    Framebuffer.lit (Framebuffer.flip fb c) k = (Framebuffer.lit fb k != decide (k = c)) := by
  simp only [Framebuffer.lit_eq, Framebuffer.mem_flip h]
  by_cases hk : k = c <;> simp [hk]

theorem Framebuffer.wf_flip {fb : Framebuffer} (h : Framebuffer.wf fb = true) {c : Nat} (hc : c < fbCells) :
    Framebuffer.wf (Framebuffer.flip fb c) = true := by
  rw [Framebuffer.wf_iff] at h ⊢
  refine ⟨?_, fun k hk => ?_⟩
  · obtain ⟨h, -⟩ := h
    induction fb with
    | nil => simp [Framebuffer.flip]
    | cons j fb ih =>
      have hj := List.pairwise_cons.1 h
      simp only [Framebuffer.flip]
      split
      · refine List.pairwise_cons.2 ⟨fun k hk => ?_, h⟩
        rcases List.mem_cons.1 hk with rfl | hk
        · assumption
        · have := hj.1 k hk; omega
      · split
        · exact hj.2
        · refine List.pairwise_cons.2 ⟨fun k hk => ?_, ih hj.2⟩
          by_cases hkc : k = c
          · omega
          · exact hj.1 k (((Framebuffer.mem_flip hj.2 c k).1 hk).2 hkc)
  · by_cases hkc : k = c
    · omega
    · exact h.2 k (((Framebuffer.mem_flip h.1 c k).1 hk).2 hkc)

theorem drawCells_wf {fb : Framebuffer} (h : Framebuffer.wf fb = true) {cs : List Nat} (hc : ∀ c ∈ cs, c < fbCells) :
    Framebuffer.wf (drawCells fb cs).1 = true := by
  induction cs generalizing fb with
  | nil => exact h
  | cons c cs ih =>
    exact ih (Framebuffer.wf_flip h (hc c (by simp))) fun k hk => hc k (by simp [hk])

/-- Drawing on distinct cells flips exactly those, and collides exactly when one of them was on. -/
theorem drawCells_spec {fb : Framebuffer} (h : Framebuffer.wf fb = true) {cs : List Nat} (hn : cs.Nodup)
    (hc : ∀ c ∈ cs, c < fbCells) :
    (∀ k, Framebuffer.lit (drawCells fb cs).1 k = (Framebuffer.lit fb k != decide (k ∈ cs))) ∧
    (drawCells fb cs).2 = cs.any (Framebuffer.lit fb) := by
  induction cs generalizing fb with
  | nil => simp [drawCells]
  | cons c cs ih =>
    have hs := ((Framebuffer.wf_iff fb).1 h).1
    rw [List.nodup_cons] at hn
    obtain ⟨h1, h2⟩ := ih (Framebuffer.wf_flip h (hc c (by simp))) hn.2 fun k hk => hc k (by simp [hk])
    refine ⟨fun k => ?_, ?_⟩
    · simp only [drawCells, h1, Framebuffer.lit_flip hs]
      by_cases hk : k = c
      · subst hk; simp [hn.1]
      · simp [hk]
    · simp only [drawCells, h2, List.any_cons]
      congr 1
      rw [Bool.eq_iff_iff, List.any_eq_true, List.any_eq_true]
      refine exists_congr fun k => and_congr_right fun hk => ?_
      have : k ≠ c := fun e => hn.1 (e ▸ hk)
      simp [Framebuffer.lit_flip hs, this]

/-! ### Scrolling (40_display.md R101 to R103) -/

/-- The cell of a pixel of the active area, and its column and row again. -/
theorem Dims.cellOf_lt {d : Dims} {x y : Nat} (hx : x < d.w) (hy : y < d.h) : d.cellOf x y < d.w * d.h := by
  have : (y + 1) * d.w ≤ d.h * d.w := Nat.mul_le_mul_right _ hy
  rw [Nat.add_mul] at this
  rw [Nat.mul_comm d.w]
  unfold Dims.cellOf
  omega

theorem Dims.cellOf_mod {d : Dims} {x : Nat} (hx : x < d.w) (y : Nat) : d.cellOf x y % d.w = x := by
  rw [Dims.cellOf, Nat.add_comm, Nat.add_mul_mod_self_right, Nat.mod_eq_of_lt hx]

theorem Dims.cellOf_div {d : Dims} {x : Nat} (hx : x < d.w) (y : Nat) : d.cellOf x y / d.w = y := by
  rw [Dims.cellOf, Nat.add_comm, Nat.add_mul_div_right _ _ (by omega), Nat.div_eq_of_lt hx, Nat.zero_add]

/-- Every cell of the active area is the cell of a column and a row. -/
theorem Dims.cellOf_mod_div (d : Dims) (c : Nat) : d.cellOf (c % d.w) (c / d.w) = c := by
  rw [Dims.cellOf, Nat.mul_comm]
  exact Nat.div_add_mod c d.w

theorem Dims.row_lt {d : Dims} {c : Nat} (h : c < d.w * d.h) : c / d.w < d.h := Nat.div_lt_of_lt_mul h

theorem Dims.col_lt {d : Dims} {c : Nat} (h : c < d.w * d.h) : c % d.w < d.w :=
  Nat.mod_lt _ (Nat.pos_of_ne_zero fun e => by simp [e] at h)

/-- A shift leaves the cells outside the active area alone, if it moves no pixel out of the area. -/
theorem Framebuffer.lit_shift_outside {d : Dims} {move : Nat → Nat → Option (Nat × Nat)} (fb : Framebuffer)
    (hm : ∀ x y q, x < d.w → y < d.h → move x y = some q → q.1 < d.w ∧ q.2 < d.h) {c : Nat} (hc : d.w * d.h ≤ c) :
    Framebuffer.lit (Framebuffer.shift d move fb) c = Framebuffer.lit fb c := by
  rw [Bool.eq_iff_iff, Framebuffer.lit_iff, Framebuffer.lit_iff, Framebuffer.shift, List.mem_filterMap]
  constructor
  · rintro ⟨k, hk, h⟩
    split at h
    · rename_i hlt
      obtain ⟨q, hq, rfl⟩ := Option.map_eq_some_iff.1 h
      obtain ⟨h1, h2⟩ := hm _ _ _ (Dims.col_lt hlt) (Dims.row_lt hlt) hq
      exact absurd (Dims.cellOf_lt h1 h2) (by omega)
    · cases h; exact hk
  · intro h
    exact ⟨c, h, by rw [if_neg (by omega)]⟩

/-- Where the pixel at `(x, y)` of a shifted picture comes from: from the one place `(x0, y0)` that moves there, or from nowhere. -/
theorem Framebuffer.lit_shift_inside {d : Dims} {move : Nat → Nat → Option (Nat × Nat)} (fb : Framebuffer) {x y : Nat}
    (hx : x < d.w) (hy : y < d.h)
    (hm : ∀ a b q, a < d.w → b < d.h → move a b = some q → q.1 < d.w ∧ q.2 < d.h) :
    Framebuffer.lit (Framebuffer.shift d move fb) (d.cellOf x y) = true ↔
      ∃ a b, a < d.w ∧ b < d.h ∧ move a b = some (x, y) ∧ Framebuffer.lit fb (d.cellOf a b) = true := by
  rw [Framebuffer.lit_iff, Framebuffer.shift, List.mem_filterMap]
  constructor
  · rintro ⟨k, hk, h⟩
    split at h
    · rename_i hlt
      obtain ⟨q, hq, he⟩ := Option.map_eq_some_iff.1 h
      have ha := Dims.col_lt hlt
      have hb := Dims.row_lt hlt
      obtain ⟨h1, h2⟩ := hm _ _ _ ha hb hq
      have e1 := Dims.cellOf_mod h1 q.2
      have e2 := Dims.cellOf_div h1 q.2
      rw [he, Dims.cellOf_mod hx] at e1
      rw [he, Dims.cellOf_div hx] at e2
      refine ⟨_, _, ha, hb, ?_, ?_⟩
      · rw [hq, e1, e2]
      · rw [Framebuffer.lit_iff, Dims.cellOf_mod_div]; exact hk
    · cases h
      exact absurd (Dims.cellOf_lt hx hy) (by assumption)
  · rintro ⟨a, b, ha, hb, hab, hl⟩
    refine ⟨_, (Framebuffer.lit_iff _ _).1 hl, ?_⟩
    rw [if_pos (Dims.cellOf_lt ha hb), Dims.cellOf_mod ha, Dims.cellOf_div ha, hab]
    rfl

/-- The picture after a scroll down, cell by cell, as 40_display.md R101 writes it. -/
theorem Framebuffer.lit_scrollDown {d : Dims} (n : Nat) (fb : Framebuffer) {x y : Nat} (hx : x < d.w) (hy : y < d.h) :
    Framebuffer.lit (Framebuffer.scrollDown d n fb) (d.cellOf x y)
      = (if y ≥ n then Framebuffer.lit fb (d.cellOf x (y - n)) else false) := by
  rw [Bool.eq_iff_iff, Framebuffer.scrollDown, Framebuffer.lit_shift_inside fb hx hy (by grind)]
  constructor
  · rintro ⟨a, b, ha, hb, h, hl⟩
    split at h
    · cases h; simpa using hl
    · cases h
  · intro h
    split at h
    · exact ⟨x, y - n, hx, by omega, by rw [if_pos (by omega)]; simp; omega, h⟩
    · cases h

/-- The picture after a scroll right, cell by cell, as 40_display.md R102 writes it. -/
theorem Framebuffer.lit_scrollRight {d : Dims} (k : Nat) (fb : Framebuffer) {x y : Nat} (hx : x < d.w) (hy : y < d.h) :
    Framebuffer.lit (Framebuffer.scrollRight d k fb) (d.cellOf x y)
      = (if x ≥ k then Framebuffer.lit fb (d.cellOf (x - k) y) else false) := by
  rw [Bool.eq_iff_iff, Framebuffer.scrollRight, Framebuffer.lit_shift_inside fb hx hy (by grind)]
  constructor
  · rintro ⟨a, b, ha, hb, h, hl⟩
    split at h
    · cases h; simpa using hl
    · cases h
  · intro h
    split at h
    · exact ⟨x - k, y, by omega, hy, by rw [if_pos (by omega)]; simp; omega, h⟩
    · cases h

/-- The picture after a scroll left, cell by cell, as 40_display.md R103 writes it. -/
theorem Framebuffer.lit_scrollLeft {d : Dims} (k : Nat) (fb : Framebuffer) {x y : Nat} (hx : x < d.w) (hy : y < d.h) :
    Framebuffer.lit (Framebuffer.scrollLeft d k fb) (d.cellOf x y)
      = (if x + k ≤ d.w - 1 then Framebuffer.lit fb (d.cellOf (x + k) y) else false) := by
  rw [Bool.eq_iff_iff, Framebuffer.scrollLeft, Framebuffer.lit_shift_inside fb hx hy (by grind)]
  constructor
  · rintro ⟨a, b, ha, hb, h, hl⟩
    split at h
    · cases h
      have : a - k + k = a := by omega
      rw [if_pos (by omega), this]
      exact hl
    · cases h
  · intro h
    split at h
    · exact ⟨x + k, y, by omega, hy, by rw [if_pos (by omega)]; simp, h⟩
    · cases h

theorem Framebuffer.lit_scrollDown_outside {d : Dims} (n : Nat) (fb : Framebuffer) {c : Nat} (hc : d.w * d.h ≤ c) :
    Framebuffer.lit (Framebuffer.scrollDown d n fb) c = Framebuffer.lit fb c :=
  Framebuffer.lit_shift_outside fb (by grind) hc

theorem Framebuffer.lit_scrollRight_outside {d : Dims} (k : Nat) (fb : Framebuffer) {c : Nat} (hc : d.w * d.h ≤ c) :
    Framebuffer.lit (Framebuffer.scrollRight d k fb) c = Framebuffer.lit fb c :=
  Framebuffer.lit_shift_outside fb (by grind) hc

theorem Framebuffer.lit_scrollLeft_outside {d : Dims} (k : Nat) (fb : Framebuffer) {c : Nat} (hc : d.w * d.h ≤ c) :
    Framebuffer.lit (Framebuffer.scrollLeft d k fb) c = Framebuffer.lit fb c :=
  Framebuffer.lit_shift_outside fb (by grind) hc

/-- A shift whose moves all add the same offset to the cell keeps the canonical form. -/
theorem Framebuffer.wf_shift {d : Dims} {move : Nat → Nat → Option (Nat × Nat)} {fb : Framebuffer} (up down : Nat)
    (hd : d.w * d.h ≤ fbCells) (h : Framebuffer.wf fb = true)
    (hm : ∀ x y q, x < d.w → y < d.h → move x y = some q →
      q.1 < d.w ∧ q.2 < d.h ∧ d.cellOf q.1 q.2 + down = d.cellOf x y + up) :
    Framebuffer.wf (Framebuffer.shift d move fb) = true := by
  have key : ∀ c e, (if c < d.w * d.h then (move (c % d.w) (c / d.w)).map fun q => d.cellOf q.1 q.2 else some c) = some e →
      (d.w * d.h ≤ c ∧ e = c) ∨ (c < d.w * d.h ∧ e < d.w * d.h ∧ e + down = c + up) := by
    intro c e he
    split at he
    · rename_i hc
      obtain ⟨q, hq, rfl⟩ := Option.map_eq_some_iff.1 he
      obtain ⟨h1, h2, h3⟩ := hm _ _ _ (Dims.col_lt hc) (Dims.row_lt hc) hq
      rw [Dims.cellOf_mod_div] at h3
      exact .inr ⟨hc, Dims.cellOf_lt h1 h2, h3⟩
    · cases he
      exact .inl ⟨by omega, rfl⟩
  rw [Framebuffer.wf_iff] at h ⊢
  refine ⟨List.Pairwise.filterMap _ ?_ h.1, fun e he => ?_⟩
  · intro a b hab a' ha' b' hb'
    rcases key a a' (by simpa using ha') with h1 | h1 <;> rcases key b b' (by simpa using hb') with h2 | h2 <;> omega
  · obtain ⟨c, hc, he⟩ := List.mem_filterMap.1 he
    have := h.2 c hc
    rcases key c e he with h1 | h1 <;> omega

theorem Framebuffer.wf_scrollDown {d : Dims} {fb : Framebuffer} (n : Nat) (hd : d.w * d.h ≤ fbCells)
    (h : Framebuffer.wf fb = true) : Framebuffer.wf (Framebuffer.scrollDown d n fb) = true := by
  refine Framebuffer.wf_shift (n * d.w) 0 hd h fun x y q hx hy hq => ?_
  split at hq
  · cases hq
    exact ⟨hx, by assumption, by simp only [Dims.cellOf, Nat.add_mul]; omega⟩
  · cases hq

theorem Framebuffer.wf_scrollRight {d : Dims} {fb : Framebuffer} (k : Nat) (hd : d.w * d.h ≤ fbCells)
    (h : Framebuffer.wf fb = true) : Framebuffer.wf (Framebuffer.scrollRight d k fb) = true := by
  refine Framebuffer.wf_shift k 0 hd h fun x y q hx hy hq => ?_
  split at hq
  · cases hq
    exact ⟨by assumption, hy, by simp only [Dims.cellOf]; omega⟩
  · cases hq

theorem Framebuffer.wf_scrollLeft {d : Dims} {fb : Framebuffer} (k : Nat) (hd : d.w * d.h ≤ fbCells)
    (h : Framebuffer.wf fb = true) : Framebuffer.wf (Framebuffer.scrollLeft d k fb) = true := by
  refine Framebuffer.wf_shift 0 k hd h fun x y q hx hy hq => ?_
  split at hq
  · cases hq
    exact ⟨by simp only; omega, hy, by simp only [Dims.cellOf]; omega⟩
  · cases hq

end Sys2Proof.Machine
end

