-- ==== Sys2Proof/Laws/Memory.lean ====
section
/-! SUPPORT. The laws of memory: what a read sees after a write, and that every operation keeps the canonical form. -/

namespace Sys2Proof.Machine

variable {base : Nat → Byte}

theorem Memory.read_cons (e : Host.Cell) (m : Memory) (a : Nat) :
    Memory.read base (e :: m) a = if e.1 = a then e.2 else Memory.read base m a := rfl

theorem Memory.read_insert (m : Memory) (a : Nat) (b : Byte) (k : Nat) :
    Memory.read base (Memory.insert m a b) k = if k = a then b else Memory.read base m k := by
  induction m with
  | nil => simp [Memory.insert, Memory.read, eq_comm]
  | cons e m ih =>
    obtain ⟨j, c⟩ := e
    simp only [Memory.insert]
    split
    · simp only [Memory.read_cons, eq_comm]
    · split
      · subst_vars
        simp only [Memory.read_cons, eq_comm]
        split <;> rfl
      · simp only [Memory.read_cons, ih]
        grind

theorem Memory.read_erase (m : Memory) (a k : Nat) :
    Memory.read base (Memory.erase m a) k = if k = a then base k else Memory.read base m k := by
  induction m with
  | nil => simp [Memory.erase, Memory.read]
  | cons e m ih =>
    obtain ⟨j, c⟩ := e
    by_cases h : j = a
    · simp only [Memory.erase, List.filter_cons, h, bne_self_eq_false, Bool.false_eq_true, if_false, Memory.read_cons]
      rw [← Memory.erase, ih]
      grind
    · simp only [Memory.erase, List.filter_cons, bne_iff_ne, ne_eq, h, not_false_eq_true, if_true, Memory.read_cons]
      rw [← Memory.erase, ih]
      grind

/-- A read after a write gives the byte written there, and what was there before anywhere else. -/
theorem Memory.read_write (m : Memory) (a : Nat) (b : Byte) (k : Nat) :
    Memory.read base (Memory.write base m a b) k = if k = a then b else Memory.read base m k := by
  unfold Memory.write
  split
  · rw [Memory.read_erase]
    split <;> simp_all
  · exact Memory.read_insert m a b k

/-- What a read sees after a run of bytes was written. -/
theorem Memory.read_writeList (bs : List Byte) (m : Memory) (a k : Nat) :
    Memory.read base (Memory.writeList base m a bs) k
      = if h : a ≤ k ∧ k < a + bs.length then bs[k - a]'(by omega) else Memory.read base m k := by
  induction bs generalizing m a with
  | nil => simp [Memory.writeList]
  | cons b bs ih =>
    rw [Memory.writeList, ih, Memory.read_write]
    by_cases h : k = a
    · subst h
      simp
    · by_cases h' : a + 1 ≤ k ∧ k < a + 1 + bs.length
      · have h2 : a ≤ k ∧ k < a + (b :: bs).length := by simp; omega
        rw [dif_pos h', dif_pos h2]
        have h3 : k - a = (k - (a + 1)) + 1 := by omega
        simp [h3]
      · have h2 : ¬ (a ≤ k ∧ k < a + (b :: bs).length) := by simp; omega
        rw [dif_neg h', dif_neg h2, if_neg h]

/-! ### The canonical form -/

theorem Memory.wf_iff (m : Memory) : Memory.wf base m = true ↔
    m.Pairwise (fun p q => p.1 < q.1) ∧ ∀ e ∈ m, e.1 < memSize ∧ e.2 ≠ base e.1 := by
  simp [Memory.wf]

theorem Memory.wf_nil : Memory.wf base [] = true := by simp [Memory.wf]

theorem Memory.wf_erase {m : Memory} (h : Memory.wf base m = true) (a : Nat) : Memory.wf base (Memory.erase m a) = true := by
  rw [Memory.wf_iff] at h ⊢
  exact ⟨h.1.filter _, fun e he => h.2 e (List.mem_of_mem_filter he)⟩

/-- Every entry of an insertion is the inserted one or was there. -/
theorem Memory.mem_insert {m : Memory} {a : Nat} {b : Byte} {e : Host.Cell} (h : e ∈ Memory.insert m a b) :
    e = (a, b) ∨ e ∈ m := by
  induction m with
  | nil => simpa [Memory.insert] using h
  | cons f m ih =>
    obtain ⟨j, c⟩ := f
    simp only [Memory.insert] at h
    split at h
    · simpa using h
    · split at h
      · simp only [List.mem_cons] at h ⊢; tauto
      · simp only [List.mem_cons] at h ⊢
        rcases h with h | h
        · tauto
        · rcases ih h with h | h <;> tauto

theorem Memory.pairwise_insert {m : Memory} (h : m.Pairwise (fun p q => p.1 < q.1)) (a : Nat) (b : Byte) :
    (Memory.insert m a b).Pairwise (fun p q => p.1 < q.1) := by
  induction m with
  | nil => simp [Memory.insert]
  | cons f m ih =>
    obtain ⟨j, c⟩ := f
    rw [List.pairwise_cons] at h
    simp only [Memory.insert]
    split
    · refine List.pairwise_cons.2 ⟨?_, List.pairwise_cons.2 h⟩
      intro e he
      rcases List.mem_cons.1 he with rfl | he
      · assumption
      · exact Nat.lt_trans (by assumption) (h.1 e he)
    · split
      · subst_vars
        exact List.pairwise_cons.2 ⟨fun e he => h.1 e he, h.2⟩
      · refine List.pairwise_cons.2 ⟨fun e he => ?_, ih h.2⟩
        rcases Memory.mem_insert he with rfl | he
        · simp; omega
        · exact h.1 e he

/-- A write inside the address space keeps the canonical form. -/
theorem Memory.wf_write {m : Memory} (h : Memory.wf base m = true) {a : Nat} (ha : a < memSize) (b : Byte) :
    Memory.wf base (Memory.write base m a b) = true := by
  unfold Memory.write
  split
  · exact Memory.wf_erase h a
  · rename_i hb
    rw [Memory.wf_iff] at h ⊢
    refine ⟨Memory.pairwise_insert h.1 a b, fun e he => ?_⟩
    rcases Memory.mem_insert he with rfl | he
    · exact ⟨ha, hb⟩
    · exact h.2 e he

/-- A run of writes inside the address space keeps the canonical form. -/
theorem Memory.wf_writeList {bs : List Byte} {m : Memory} (h : Memory.wf base m = true) {a : Nat}
    (ha : a + bs.length ≤ memSize) : Memory.wf base (Memory.writeList base m a bs) = true := by
  induction bs generalizing m a with
  | nil => exact h
  | cons b bs ih =>
    simp only [List.length_cons] at ha
    exact ih (Memory.wf_write h (by omega) b) (by omega)

/-! ### The reset contents (20_memory.md R55) -/

theorem Params.resetByte_fontLo (p : Params) (j : Fin 80) : p.resetByte j.val = p.fontLo[j] := by
  simp [Params.resetByte]

theorem Params.resetByte_fontHi (p : Params) {j : Nat} (h : j < 160) : p.resetByte (fontHiBase + j) = Config.fontHi j := by
  unfold fontHiBase
  rw [Params.resetByte, if_neg (by unfold fontHiBase; omega), if_pos (by unfold fontEnd; omega)]
  simp [fontHiBase]

theorem Params.resetByte_above (p : Params) {a : Nat} (h : fontEnd ≤ a) : p.resetByte a = 0 := by
  unfold fontEnd at h
  rw [Params.resetByte, if_neg (by unfold fontHiBase; omega), if_neg (by unfold fontEnd; omega)]

/-! ### Through the state -/

/-- What a read sees after `writeBytes`. -/
theorem State.readByte_writeBytes (s : State) (a : Nat) (bs : List Byte) (k : Nat) :
    (s.writeBytes a bs).readByte k = if h : a ≤ k ∧ k < a + bs.length then bs[k - a]'(by omega) else s.readByte k :=
  Memory.read_writeList bs s.mem a k

@[simp] theorem State.init_readByte (p : Params) (a : Nat) : (State.init p).readByte a = p.resetByte a := rfl

/-- Nothing is written outside the bytes stored. -/
theorem State.readByte_writeBytes_outside (s : State) {a : Nat} {bs : List Byte} {k : Nat} (h : k < a ∨ a + bs.length ≤ k) :
    (s.writeBytes a bs).readByte k = s.readByte k := by
  rw [State.readByte_writeBytes, dif_neg (by omega)]

end Sys2Proof.Machine
end

