-- ==== Sys2Proof/Laws/Operands.lean ====
section
/-! SUPPORT. What the operand forms give: runs of registers and bytes, keys, and the cells of a sprite. -/

namespace Sys2Proof.Machine

/-! ### Runs of entries -/

/-- What an array holds after a list was written into it from index `j` on. -/
theorem writeFrom_getElem {α : Type} {n : Nat} (bs : List α) (xs : Vector α n) (j k : Nat) (hk : k < n) :
    (writeFrom xs j bs)[k] = if h : j ≤ k ∧ k < j + bs.length then bs[k - j]'(by omega) else xs[k] := by
  induction bs generalizing xs j with
  | nil => simp [writeFrom]
  | cons b bs ih =>
    rw [writeFrom, ih]
    by_cases h : k = j
    · subst h
      simp
    · by_cases h' : j + 1 ≤ k ∧ k < j + 1 + bs.length
      · have h2 : j ≤ k ∧ k < j + (b :: bs).length := by simp; omega
        have h3 : k - j = (k - (j + 1)) + 1 := by omega
        rw [dif_pos h', dif_pos h2]
        simp [h3]
      · have h2 : ¬ (j ≤ k ∧ k < j + (b :: bs).length) := by simp; omega
        rw [dif_neg h', dif_neg h2, Vector.getElem_setIfInBounds_ne _ (fun e => h e.symm)]

@[simp] theorem State.readBytes_length (s : State) (a n : Nat) : (s.readBytes a n).length = n := by
  simp [State.readBytes]

@[simp] theorem State.readBytes_getElem (s : State) (a n j : Nat) (h : j < (s.readBytes a n).length) :
    (s.readBytes a n)[j] = s.readByte (a + j) := by
  simp [State.readBytes]

@[simp] theorem State.regsTo_length (s : State) (x : Reg) : (s.regsTo x).length = x.val + 1 := by
  have := x.isLt
  simp [State.regsTo]

@[simp] theorem State.regsTo_getElem (s : State) (x : Reg) (j : Nat) (h : j < (s.regsTo x).length) :
    (s.regsTo x)[j] = s.reg ⟨j, by have := x.isLt; simp at h; omega⟩ := by
  simp [State.regsTo, State.reg]

@[simp] theorem bcdDigits_length (b : Byte) : (bcdDigits b).length = 3 := rfl

/-! ### Keys (44_keypad_timers.md) -/

theorem State.keyDown_eq (s : State) (k : Fin 16) : s.keyDown k.val = s.key[k] := by
  simp [State.keyDown, List.getD_eq_getElem?_getD]

/-- The lowest key, if there is one, is down, and every key below it is up. -/
theorem State.lowestKey_some {s : State} {k : Nat} (h : s.lowestKey = some k) :
    k < 16 ∧ s.keyDown k = true ∧ ∀ j < k, s.keyDown j = false := by
  obtain ⟨h1, h2⟩ := List.find?_range_eq_some.1 h
  exact ⟨by simpa using h2.1, h1, fun j hj => by simpa using h2.2 j hj⟩

/-- There is no lowest key exactly when every key is up. -/
theorem State.lowestKey_none {s : State} : s.lowestKey = none ↔ ∀ k < 16, s.keyDown k = false := by
  simp [State.lowestKey]

/-! ### Sprites (40_display.md R106, R107) -/

theorem State.dims_cells (s : State) : s.dims.w * s.dims.h ≤ fbCells := by
  unfold State.dims
  split <;> decide

theorem State.dims_ge (s : State) : 16 ≤ s.dims.w ∧ 16 ≤ s.dims.h := by
  unfold State.dims
  split <;> decide

theorem spriteShape_le (n : Nibble) (ext : Bool) :
    1 ≤ (spriteShape n ext).rows ∧ (spriteShape n ext).rows ≤ 16 ∧ (spriteShape n ext).width ≤ 16 := by
  have h : n.toNat < 16 := n.isLt
  unfold spriteShape
  split
  · split <;> simp
  · rename_i hn
    have : n.toNat ≠ 0 := fun e => hn (BitVec.eq_of_toNat_eq (by simpa using e))
    simp only
    omega

theorem spriteCell_lt {d : Dims} (h : 0 < d.w ∧ 0 < d.h) (x0 y0 r c : Nat) : spriteCell d x0 y0 r c < d.w * d.h :=
  Dims.cellOf_lt (Nat.mod_lt _ h.1) (Nat.mod_lt _ h.2)

/-- Distinct bits of a sprite no wider and no higher than the screen fall on distinct cells. -/
theorem spriteCell_inj {d : Dims} {x0 y0 r c r' c' : Nat} (hr : r < d.h) (hr' : r' < d.h) (hc : c < d.w) (hc' : c' < d.w)
    (h : spriteCell d x0 y0 r c = spriteCell d x0 y0 r' c') : r = r' ∧ c = c' := by
  have hw : 0 < d.w := by omega
  have e1 := congrArg (· % d.w) h
  have e2 := congrArg (· / d.w) h
  simp only [spriteCell, Dims.cellOf_mod (Nat.mod_lt _ hw), Dims.cellOf_div (Nat.mod_lt _ hw)] at e1 e2
  have f1 : c % d.w = c' % d.w := Nat.ModEq.add_left_cancel' x0 e1
  have f2 : r % d.h = r' % d.h := Nat.ModEq.add_left_cancel' y0 e2
  rw [Nat.mod_eq_of_lt hc, Nat.mod_eq_of_lt hc'] at f1
  rw [Nat.mod_eq_of_lt hr, Nat.mod_eq_of_lt hr'] at f2
  exact ⟨f2, f1⟩

theorem State.mem_spriteCells (s : State) (sh : SpriteShape) (x0 y0 c : Nat) : c ∈ s.spriteCells sh x0 y0 ↔
    ∃ r < sh.rows, ∃ k < sh.width, s.spriteBit sh r k = true ∧ spriteCell s.dims x0 y0 r k = c := by
  simp only [State.spriteCells, List.mem_flatMap, List.mem_map, List.mem_filter, List.mem_range]
  constructor
  · rintro ⟨r, hr, k, ⟨hk, hb⟩, rfl⟩
    exact ⟨r, hr, k, hk, hb, rfl⟩
  · rintro ⟨r, hr, k, hk, hb, rfl⟩
    exact ⟨r, hr, k, ⟨hk, hb⟩, rfl⟩

theorem State.spriteCells_lt (s : State) (sh : SpriteShape) (x0 y0 : Nat) : ∀ c ∈ s.spriteCells sh x0 y0, c < s.dims.w * s.dims.h := by
  intro c hc
  obtain ⟨r, _, k, _, _, rfl⟩ := (s.mem_spriteCells sh x0 y0 c).1 hc
  have := s.dims_ge
  exact spriteCell_lt ⟨by omega, by omega⟩ _ _ _ _

theorem State.spriteCells_nodup (s : State) (n : Nibble) (x0 y0 : Nat) :
    (s.spriteCells (spriteShape n s.ext) x0 y0).Nodup := by
  have hd := s.dims_ge
  have hs := spriteShape_le n s.ext
  rw [State.spriteCells, List.nodup_flatMap]
  refine ⟨fun r hr => ?_, ?_⟩
  · refine List.Nodup.map_on ?_ (List.nodup_range.filter _)
    intro a ha b hb h
    simp only [List.mem_filter, List.mem_range] at ha hb hr
    exact (spriteCell_inj (by omega) (by omega) (by omega) (by omega) h).2
  · refine List.Nodup.pairwise_of_forall_ne List.nodup_range fun r hr r' hr' hne => ?_
    intro c hc hc'
    simp only [List.mem_map, List.mem_filter, List.mem_range] at hc hc' hr hr'
    obtain ⟨a, ⟨ha, _⟩, rfl⟩ := hc
    obtain ⟨b, ⟨hb, _⟩, h⟩ := hc'
    exact hne (spriteCell_inj (by omega) (by omega) (by omega) (by omega) h).1.symm

end Sys2Proof.Machine
end

