-- ==== Sys2Proof/Laws/PerInstr.lean ====
section
/-! SUPPORT. Statements for all instructions, one lemma for each constructor. `TableRow`: the opcode of an instruction selects the
row of 30_encoding.md R76 that stands for it, that row is in the table, and every operand fits its field. -/

namespace Sys2Proof.Laws.TableRow

/-- The opcode of the instruction selects its own row of the table, and its operands fit their fields. -/
def Statement (i : Instr) : Prop := i.row.selects (encode i) = true ∧ i.row ∈ opcodeTable ∧ i.wellFormed = true

theorem mask_scd (n : Nibble) : (0x00C#12 ++ n : Word) &&& 0xFFF0 = 0x00C0 := by
  revert n; decide

theorem mask_packNNN (n1 : Nibble) (nnn : Addr12) : packNNN n1 nnn &&& 0xF000 = packNNN n1 0 := by
  unfold packNNN
  apply BitVec.eq_of_getLsbD_eq; intro j hj
  simp only [BitVec.getLsbD_and, BitVec.getLsbD_append]
  interval_cases j <;> simp

theorem mask_packXNN (n1 : Nibble) (x : Reg) (nn : Byte) : packXNN n1 x nn &&& 0xF000 = packXNN n1 0 0 := by
  unfold packXNN
  generalize (BitVec.ofFin x : Nibble) = a
  apply BitVec.eq_of_getLsbD_eq; intro j hj
  simp only [BitVec.getLsbD_and, BitVec.getLsbD_append]
  interval_cases j <;> simp

theorem mask_packXss (n1 : Nibble) (x : Reg) (nn : Byte) : packXNN n1 x nn &&& 0xF0FF = packXNN n1 0 nn := by
  unfold packXNN
  generalize (BitVec.ofFin x : Nibble) = a
  apply BitVec.eq_of_getLsbD_eq; intro j hj
  simp only [BitVec.getLsbD_and, BitVec.getLsbD_append]
  interval_cases j <;> simp

theorem mask_packXYs (n1 : Nibble) (x y : Reg) (n : Nibble) : packXYN n1 x y n &&& 0xF00F = packXYN n1 0 0 n := by
  unfold packXYN
  generalize (BitVec.ofFin x : Nibble) = a
  generalize (BitVec.ofFin y : Nibble) = b
  apply BitVec.eq_of_getLsbD_eq; intro j hj
  simp only [BitVec.getLsbD_and, BitVec.getLsbD_append]
  interval_cases j <;> simp

theorem mask_packXYN (n1 : Nibble) (x y : Reg) (n : Nibble) : packXYN n1 x y n &&& 0xF000 = packXYN n1 0 0 0 := by
  unfold packXYN
  generalize (BitVec.ofFin x : Nibble) = a
  generalize (BitVec.ofFin y : Nibble) = b
  apply BitVec.eq_of_getLsbD_eq; intro j hj
  simp only [BitVec.getLsbD_and, BitVec.getLsbD_append]
  interval_cases j <;> simp

theorem fits_reg (x : Reg) : (Field.ofReg x).fits = true := by simp [Field.ofReg, Field.fits]

theorem fits_bits {w : Nat} (b : BitVec w) : (⟨b.toNat, w⟩ : Field).fits = true := by simp [Field.fits, b.isLt]

theorem cls : Statement (.cls) :=
  ⟨by decide, by decide, rfl⟩

theorem ret : Statement (.ret) :=
  ⟨by decide, by decide, rfl⟩

theorem scd (n : Nibble) : Statement (.scd n) :=
  ⟨by simp only [OpcodeRow.selects, Instr.row, encode, mask_scd]; decide,
   by simp only [Instr.row]; decide, by simp [Instr.wellFormed, Instr.fields, fits_bits]⟩

theorem scr : Statement (.scr) :=
  ⟨by decide, by decide, rfl⟩

theorem scl : Statement (.scl) :=
  ⟨by decide, by decide, rfl⟩

theorem low : Statement (.low) :=
  ⟨by decide, by decide, rfl⟩

theorem high : Statement (.high) :=
  ⟨by decide, by decide, rfl⟩

theorem jp (nnn : Addr12) : Statement (.jp nnn) :=
  ⟨by simp only [OpcodeRow.selects, Instr.row, encode, mask_packNNN]; decide,
   by simp only [Instr.row]; decide, by simp [Instr.wellFormed, Instr.fields, fits_bits]⟩

theorem call (nnn : Addr12) : Statement (.call nnn) :=
  ⟨by simp only [OpcodeRow.selects, Instr.row, encode, mask_packNNN]; decide,
   by simp only [Instr.row]; decide, by simp [Instr.wellFormed, Instr.fields, fits_bits]⟩

theorem seImm (x : Reg) (nn : Byte) : Statement (.seImm x nn) :=
  ⟨by simp only [OpcodeRow.selects, Instr.row, encode, mask_packXNN]; decide,
   by simp only [Instr.row]; decide, by simp [Instr.wellFormed, Instr.fields, fits_reg, fits_bits]⟩

theorem sneImm (x : Reg) (nn : Byte) : Statement (.sneImm x nn) :=
  ⟨by simp only [OpcodeRow.selects, Instr.row, encode, mask_packXNN]; decide,
   by simp only [Instr.row]; decide, by simp [Instr.wellFormed, Instr.fields, fits_reg, fits_bits]⟩

theorem seReg (x y : Reg) : Statement (.seReg x y) :=
  ⟨by simp only [OpcodeRow.selects, Instr.row, encode, mask_packXYs]; decide,
   by simp only [Instr.row]; decide, by simp [Instr.wellFormed, Instr.fields, fits_reg]⟩

theorem ldImm (x : Reg) (nn : Byte) : Statement (.ldImm x nn) :=
  ⟨by simp only [OpcodeRow.selects, Instr.row, encode, mask_packXNN]; decide,
   by simp only [Instr.row]; decide, by simp [Instr.wellFormed, Instr.fields, fits_reg, fits_bits]⟩

theorem addImm (x : Reg) (nn : Byte) : Statement (.addImm x nn) :=
  ⟨by simp only [OpcodeRow.selects, Instr.row, encode, mask_packXNN]; decide,
   by simp only [Instr.row]; decide, by simp [Instr.wellFormed, Instr.fields, fits_reg, fits_bits]⟩

theorem ldReg (x y : Reg) : Statement (.ldReg x y) :=
  ⟨by simp only [OpcodeRow.selects, Instr.row, encode, mask_packXYs]; decide,
   by simp only [Instr.row]; decide, by simp [Instr.wellFormed, Instr.fields, fits_reg]⟩

theorem orReg (x y : Reg) : Statement (.orReg x y) :=
  ⟨by simp only [OpcodeRow.selects, Instr.row, encode, mask_packXYs]; decide,
   by simp only [Instr.row]; decide, by simp [Instr.wellFormed, Instr.fields, fits_reg]⟩

theorem andReg (x y : Reg) : Statement (.andReg x y) :=
  ⟨by simp only [OpcodeRow.selects, Instr.row, encode, mask_packXYs]; decide,
   by simp only [Instr.row]; decide, by simp [Instr.wellFormed, Instr.fields, fits_reg]⟩

theorem xorReg (x y : Reg) : Statement (.xorReg x y) :=
  ⟨by simp only [OpcodeRow.selects, Instr.row, encode, mask_packXYs]; decide,
   by simp only [Instr.row]; decide, by simp [Instr.wellFormed, Instr.fields, fits_reg]⟩

theorem addReg (x y : Reg) : Statement (.addReg x y) :=
  ⟨by simp only [OpcodeRow.selects, Instr.row, encode, mask_packXYs]; decide,
   by simp only [Instr.row]; decide, by simp [Instr.wellFormed, Instr.fields, fits_reg]⟩

theorem subReg (x y : Reg) : Statement (.subReg x y) :=
  ⟨by simp only [OpcodeRow.selects, Instr.row, encode, mask_packXYs]; decide,
   by simp only [Instr.row]; decide, by simp [Instr.wellFormed, Instr.fields, fits_reg]⟩

theorem shr (x y : Reg) : Statement (.shr x y) :=
  ⟨by simp only [OpcodeRow.selects, Instr.row, encode, mask_packXYs]; decide,
   by simp only [Instr.row]; decide, by simp [Instr.wellFormed, Instr.fields, fits_reg]⟩

theorem subn (x y : Reg) : Statement (.subn x y) :=
  ⟨by simp only [OpcodeRow.selects, Instr.row, encode, mask_packXYs]; decide,
   by simp only [Instr.row]; decide, by simp [Instr.wellFormed, Instr.fields, fits_reg]⟩

theorem shl (x y : Reg) : Statement (.shl x y) :=
  ⟨by simp only [OpcodeRow.selects, Instr.row, encode, mask_packXYs]; decide,
   by simp only [Instr.row]; decide, by simp [Instr.wellFormed, Instr.fields, fits_reg]⟩

theorem sneReg (x y : Reg) : Statement (.sneReg x y) :=
  ⟨by simp only [OpcodeRow.selects, Instr.row, encode, mask_packXYs]; decide,
   by simp only [Instr.row]; decide, by simp [Instr.wellFormed, Instr.fields, fits_reg]⟩

theorem ldI (nnn : Addr12) : Statement (.ldI nnn) :=
  ⟨by simp only [OpcodeRow.selects, Instr.row, encode, mask_packNNN]; decide,
   by simp only [Instr.row]; decide, by simp [Instr.wellFormed, Instr.fields, fits_bits]⟩

theorem jpV0 (nnn : Addr12) : Statement (.jpV0 nnn) :=
  ⟨by simp only [OpcodeRow.selects, Instr.row, encode, mask_packNNN]; decide,
   by simp only [Instr.row]; decide, by simp [Instr.wellFormed, Instr.fields, fits_bits]⟩

theorem rnd (x : Reg) (nn : Byte) : Statement (.rnd x nn) :=
  ⟨by simp only [OpcodeRow.selects, Instr.row, encode, mask_packXNN]; decide,
   by simp only [Instr.row]; decide, by simp [Instr.wellFormed, Instr.fields, fits_reg, fits_bits]⟩

theorem drw (x y : Reg) (n : Nibble) : Statement (.drw x y n) :=
  ⟨by simp only [OpcodeRow.selects, Instr.row, encode, mask_packXYN]; decide,
   by simp only [Instr.row]; decide, by simp [Instr.wellFormed, Instr.fields, fits_reg, fits_bits]⟩

theorem skp (x : Reg) : Statement (.skp x) :=
  ⟨by simp only [OpcodeRow.selects, Instr.row, encode, mask_packXss]; decide,
   by simp only [Instr.row]; decide, by simp [Instr.wellFormed, Instr.fields, fits_reg]⟩

theorem sknp (x : Reg) : Statement (.sknp x) :=
  ⟨by simp only [OpcodeRow.selects, Instr.row, encode, mask_packXss]; decide,
   by simp only [Instr.row]; decide, by simp [Instr.wellFormed, Instr.fields, fits_reg]⟩

theorem ldVxDt (x : Reg) : Statement (.ldVxDt x) :=
  ⟨by simp only [OpcodeRow.selects, Instr.row, encode, mask_packXss]; decide,
   by simp only [Instr.row]; decide, by simp [Instr.wellFormed, Instr.fields, fits_reg]⟩

theorem ldVxK (x : Reg) : Statement (.ldVxK x) :=
  ⟨by simp only [OpcodeRow.selects, Instr.row, encode, mask_packXss]; decide,
   by simp only [Instr.row]; decide, by simp [Instr.wellFormed, Instr.fields, fits_reg]⟩

theorem ldDtVx (x : Reg) : Statement (.ldDtVx x) :=
  ⟨by simp only [OpcodeRow.selects, Instr.row, encode, mask_packXss]; decide,
   by simp only [Instr.row]; decide, by simp [Instr.wellFormed, Instr.fields, fits_reg]⟩

theorem ldStVx (x : Reg) : Statement (.ldStVx x) :=
  ⟨by simp only [OpcodeRow.selects, Instr.row, encode, mask_packXss]; decide,
   by simp only [Instr.row]; decide, by simp [Instr.wellFormed, Instr.fields, fits_reg]⟩

theorem addI (x : Reg) : Statement (.addI x) :=
  ⟨by simp only [OpcodeRow.selects, Instr.row, encode, mask_packXss]; decide,
   by simp only [Instr.row]; decide, by simp [Instr.wellFormed, Instr.fields, fits_reg]⟩

theorem ldF (x : Reg) : Statement (.ldF x) :=
  ⟨by simp only [OpcodeRow.selects, Instr.row, encode, mask_packXss]; decide,
   by simp only [Instr.row]; decide, by simp [Instr.wellFormed, Instr.fields, fits_reg]⟩

theorem ldHf (x : Reg) : Statement (.ldHf x) :=
  ⟨by simp only [OpcodeRow.selects, Instr.row, encode, mask_packXss]; decide,
   by simp only [Instr.row]; decide, by simp [Instr.wellFormed, Instr.fields, fits_reg]⟩

theorem ldB (x : Reg) : Statement (.ldB x) :=
  ⟨by simp only [OpcodeRow.selects, Instr.row, encode, mask_packXss]; decide,
   by simp only [Instr.row]; decide, by simp [Instr.wellFormed, Instr.fields, fits_reg]⟩

theorem stRegs (x : Reg) : Statement (.stRegs x) :=
  ⟨by simp only [OpcodeRow.selects, Instr.row, encode, mask_packXss]; decide,
   by simp only [Instr.row]; decide, by simp [Instr.wellFormed, Instr.fields, fits_reg]⟩

theorem ldRegs (x : Reg) : Statement (.ldRegs x) :=
  ⟨by simp only [OpcodeRow.selects, Instr.row, encode, mask_packXss]; decide,
   by simp only [Instr.row]; decide, by simp [Instr.wellFormed, Instr.fields, fits_reg]⟩

theorem stFlags (x : Reg) : Statement (.stFlags x) :=
  ⟨by simp only [OpcodeRow.selects, Instr.row, encode, mask_packXss]; decide,
   by simp only [Instr.row]; decide, by simp [Instr.wellFormed, Instr.fields, fits_reg]⟩

theorem ldFlags (x : Reg) : Statement (.ldFlags x) :=
  ⟨by simp only [OpcodeRow.selects, Instr.row, encode, mask_packXss]; decide,
   by simp only [Instr.row]; decide, by simp [Instr.wellFormed, Instr.fields, fits_reg]⟩

end Sys2Proof.Laws.TableRow
end

