-- ==== Sys2Proof/Laws/Step.lean ====
section
/-! SUPPORT. What the shared operations of a step can do, said once each: the range guard, the fetch, placing an opcode, the step and
the state after a call of it. -/

namespace Sys2Proof.Machine

/-! ### The range guard (20_memory.md R54) -/

theorem guardMem_of_le {last : Nat} (h : last ≤ 0xFFF) (r : Result) : guardMem last r = r := by
  rw [guardMem, if_neg (by omega)]

theorem guardMem_of_gt {last : Nat} (h : 0xFFF < last) (r : Result) : guardMem last r = .refused .memOutOfRange := by
  rw [guardMem, if_pos h, refuse]

/-- A guarded answer that is a next state came past the guard. -/
theorem guardMem_next {last : Nat} {r : Result} {t : State} (h : guardMem last r = .next t) : last ≤ 0xFFF ∧ r = .next t := by
  unfold guardMem refuse at h
  split at h
  · cases h
  · exact ⟨by omega, h⟩

/-! ### Fetch (30_encoding.md R70) -/

/-- What a fetch that succeeds read, and from where. -/
theorem fetch_ok {s : State} {op : Word} (h : fetch s = .ok op) :
    s.pc.toNat + 1 ≤ 0xFFF ∧ op = opcodeOfBytes (s.readByte s.pc.toNat) (s.readByte (s.pc.toNat + 1)) := by
  unfold fetch at h
  split at h
  · cases h
  · cases h
    exact ⟨by omega, rfl⟩

/-- A fetch fails in one way only. -/
theorem fetch_error {s : State} {r : Refusal} (h : fetch s = .error r) :
    0xFFF < s.pc.toNat + 1 ∧ r = .fetchOutOfRange s.pc := by
  unfold fetch at h
  split at h
  · cases h
    exact ⟨by assumption, rfl⟩
  · cases h

@[simp] theorem State.placeOpcode_pc (s : State) (op : Word) : (s.placeOpcode op).pc = s.pc := by
  unfold State.placeOpcode
  split <;> rfl

@[simp] theorem State.placeOpcode_status (s : State) (op : Word) : (s.placeOpcode op).status = s.status := by
  unfold State.placeOpcode
  split <;> rfl

/-- The opcode placed is the opcode fetched. -/
theorem fetch_placeOpcode {s : State} (h : s.pc.toNat + 1 ≤ 0xFFF) (op : Word) : fetch (s.placeOpcode op) = .ok op := by
  have h' : ¬ s.pc.toNat + 1 > 0xFFF := by omega
  rw [fetch, State.placeOpcode_pc, if_neg h', State.placeOpcode, if_neg h', State.readByte_writeBytes, State.readByte_writeBytes]
  simp [bytesOfOpcode, opcodeOfBytes_bytesOfOpcode]

/-! ### The step (30_encoding.md R83) -/

/-- A step that gives a next state ran one decoded instruction of a running machine. -/
theorem step_next {s t : State} (h : step s = .next t) :
    s.status = .running ∧ ∃ op i, fetch s = .ok op ∧ decode op = .ok i ∧ exec i s = .next t := by
  unfold step at h
  split at h
  · cases h
  · cases h
  · rename_i hs
    refine ⟨hs, ?_⟩
    split at h
    · cases h
    · rename_i op hop
      split at h
      · cases h
      · rename_i i hi
        exact ⟨op, i, hop, hi, h⟩

/-- What a call of `step()` leaves: the next state, or the state before with only `status` changed (60_exceptions.md R220). -/
theorem State.stepCall_cases (s : State) : step s = .next s.stepCall ∨ ∃ u, s.stepCall = s.setStatus u := by
  unfold State.stepCall
  cases h : step s with
  | next t => exact .inl rfl
  | fault f => exact .inr ⟨statusOfFault f, rfl⟩
  | refused r => exact .inr ⟨.refused r, rfl⟩

end Sys2Proof.Machine
end

