-- ==== Sys2Proof/Tests/Slice0.lean ====
section
/-! SUPPORT. Tests: the well-formedness smoke test, a word for every constructor written out from 30_encoding.md R73 and R76, one
step of each instruction from the vectors of 95_test_vectors.md, and a witness for the hypotheses of every obligation. -/

namespace Sys2Proof.Tests

open Sys2Proof.Machine

/-! ### Well-formedness (30_encoding.md R72, R78, R79) -/

theorem test_register_field_too_wide : Field.fits ⟨16, 4⟩ = false := by decide
theorem test_row_count_field_too_wide : Field.fits ⟨16, 4⟩ = false ∧ Field.fits ⟨15, 4⟩ = true := by decide
theorem test_immediate_field_too_wide : Field.fits ⟨256, 8⟩ = false ∧ Field.fits ⟨255, 8⟩ = true := by decide
theorem test_address_field_too_wide : Field.fits ⟨4096, 12⟩ = false ∧ Field.fits ⟨4095, 12⟩ = true := by decide

/-- The eleven opcodes of 95_test_vectors.md L2.F. -/
def illegalOpcodes : List Word :=
  [0x0000, 0x0123, 0x00FD, 0x00B1, 0x5121, 0x9121, 0x8128, 0x812F, 0xE19F, 0xF0FF, 0xF100]

theorem test_illegal_opcodes_match_no_row : illegalOpcodes.all (fun op => !legalOpcode op) = true := by decide
theorem test_illegal_opcodes_are_rejected_by_name :
    illegalOpcodes.all (fun op => decode op == .error (.unknownOpcode op)) = true := by decide
theorem test_truncated_opcode_is_rejected : decodeBytes [0x12] = .error .truncated := by decide

/-! ### A word for every constructor, its bits written out (30_encoding.md R73, R76, R77) -/

theorem test_decode_cls : decode 0b0000000011100000 = .ok .cls := by decide
theorem test_decode_ret : decode 0b0000000011101110 = .ok .ret := by decide
theorem test_decode_scd : decode 0b0000000011001011 = .ok (.scd 11) := by decide
theorem test_decode_scr : decode 0b0000000011111011 = .ok .scr := by decide
theorem test_decode_scl : decode 0b0000000011111100 = .ok .scl := by decide
theorem test_decode_low : decode 0b0000000011111110 = .ok .low := by decide
theorem test_decode_high : decode 0b0000000011111111 = .ok .high := by decide
theorem test_decode_jp : decode 0b0001101010111100 = .ok (.jp 0xABC) := by decide
theorem test_decode_call : decode 0b0010100000000001 = .ok (.call 0x801) := by decide
theorem test_decode_seImm : decode 0b0011110000001111 = .ok (.seImm 12 0x0F) := by decide
theorem test_decode_sneImm : decode 0b0100001110000001 = .ok (.sneImm 3 0x81) := by decide
theorem test_decode_seReg : decode 0b0101000110000000 = .ok (.seReg 1 8) := by decide
theorem test_decode_ldImm : decode 0b0110101011111110 = .ok (.ldImm 10 0xFE) := by decide
theorem test_decode_addImm : decode 0b0111111100000001 = .ok (.addImm 15 0x01) := by decide
theorem test_decode_ldReg : decode 0b1000000100110000 = .ok (.ldReg 1 3) := by decide
theorem test_decode_orReg : decode 0b1000000100100001 = .ok (.orReg 1 2) := by decide
theorem test_decode_andReg : decode 0b1000001000010010 = .ok (.andReg 2 1) := by decide
theorem test_decode_xorReg : decode 0b1000010010000011 = .ok (.xorReg 4 8) := by decide
theorem test_decode_addReg : decode 0b1000111100010100 = .ok (.addReg 15 1) := by decide
theorem test_decode_subReg : decode 0b1000000111110101 = .ok (.subReg 1 15) := by decide
theorem test_decode_shr : decode 0b1000001101000110 = .ok (.shr 3 4) := by decide
theorem test_decode_subn : decode 0b1000010100110111 = .ok (.subn 5 3) := by decide
theorem test_decode_shl : decode 0b1000011010101110 = .ok (.shl 6 10) := by decide
theorem test_decode_sneReg : decode 0b1001001000010000 = .ok (.sneReg 2 1) := by decide
theorem test_decode_ldI : decode 0b1010000100100011 = .ok (.ldI 0x123) := by decide
theorem test_decode_jpV0 : decode 0b1011111111111110 = .ok (.jpV0 0xFFE) := by decide
theorem test_decode_rnd : decode 0b1100001110001111 = .ok (.rnd 3 0x8F) := by decide
theorem test_decode_drw : decode 0b1101000100100101 = .ok (.drw 1 2 5) := by decide
theorem test_decode_skp : decode 0b1110010110011110 = .ok (.skp 5) := by decide
theorem test_decode_sknp : decode 0b1110010110100001 = .ok (.sknp 5) := by decide
theorem test_decode_ldVxDt : decode 0b1111001100000111 = .ok (.ldVxDt 3) := by decide
theorem test_decode_ldVxK : decode 0b1111001100001010 = .ok (.ldVxK 3) := by decide
theorem test_decode_ldDtVx : decode 0b1111001100010101 = .ok (.ldDtVx 3) := by decide
theorem test_decode_ldStVx : decode 0b1111001100011000 = .ok (.ldStVx 3) := by decide
theorem test_decode_addI : decode 0b1111000100011110 = .ok (.addI 1) := by decide
theorem test_decode_ldF : decode 0b1111001100101001 = .ok (.ldF 3) := by decide
theorem test_decode_ldHf : decode 0b1111001100110000 = .ok (.ldHf 3) := by decide
theorem test_decode_ldB : decode 0b1111000000110011 = .ok (.ldB 0) := by decide
theorem test_decode_stRegs : decode 0b1111001001010101 = .ok (.stRegs 2) := by decide
theorem test_decode_ldRegs : decode 0b1111111101100101 = .ok (.ldRegs 15) := by decide
theorem test_decode_stFlags : decode 0b1111000101110101 = .ok (.stFlags 1) := by decide
theorem test_decode_ldFlags : decode 0b1111011110000101 = .ok (.ldFlags 7) := by decide

/-- Bits 15 to 8 of the table word are the first byte, which is the opcode's high one (20_memory.md R52). -/
theorem test_table_word : decodeTableWord 16 0x6C0F = some (.ldImm 12 0x0F) ∧ decodeTableWord 16 0x0F6C = none := by decide

/-! ### One step of an opcode placed at 0x200 (95_test_vectors.md L1 and L2; each vector is named) -/

/-- The opcode is stored at `PC` and one step runs. -/
def run (op : Word) (s : State) : Result := step (s.placeOpcode op)

/-- The answer is a next state that has the property. -/
def nextIs (r : Result) (p : State → Bool) : Bool :=
  match r with
  | .next t => p t
  | _ => false

/-- The answer is that refusal. -/
def refuses (r : Result) (reason : Refusal) : Bool :=
  match r with
  | .refused q => q == reason
  | _ => false

/-- The answer is that fault. -/
def faults (r : Result) (fault : Fault) : Bool :=
  match r with
  | .fault f => f == fault
  | _ => false

/-- The machine with other parameters. -/
def reset0 (f : Params → Params) : State := State.init (f Params.default)

/-- The machine in extended mode. -/
def resetExt : State := State.reset.setExt true

/-- The cell of a pixel of the 64 by 32 screen, and of the 128 by 64 one (10_state.md R35). -/
def px (x y : Nat) : Nat := 64 * y + x
def pxExt (x y : Nat) : Nat := 128 * y + x

/-- A machine with one sprite byte at 0x300 and `I` there. -/
def sprite (b v0 v1 : Byte) : State := (((State.reset.writeBytes 0x300 [b]).setI 0x300).setReg 0 v0).setReg 1 v1

/-- L2-D1 -/
theorem test_cls : nextIs (run 0x00E0 (State.reset.setFb [px 1 1, px 63 31])) (fun t =>
    t.fb == [] && t.draw && t.pc == 0x202) = true := by decide
/-- L2-D2 -/
theorem test_cls_extended : nextIs (run 0x00E0 (resetExt.setFb [pxExt 127 63])) (fun t => t.fb == []) = true := by decide
/-- L2-D3 -/
theorem test_scd_moves_down : nextIs (run 0x00C2 (resetExt.setFb [pxExt 5 0])) (fun t =>
    t.fb == [pxExt 5 2] && t.draw) = true := by decide
/-- L2-D4 and L2-D6 in one picture: the bottom row is lost, row 28 goes to row 31. -/
theorem test_scd_loses_the_bottom : nextIs (run 0x00C3 (State.reset.setFb [px 63 28, px 9 29])) (fun t =>
    t.fb == [px 63 31]) = true := by decide
/-- L2-D7, L2-D8 -/
theorem test_scr_extended : nextIs (run 0x00FB (resetExt.setFb [pxExt 0 0, pxExt 126 5])) (fun t =>
    t.fb == [pxExt 4 0]) = true := by decide
/-- L2-D9 -/
theorem test_scr_standard : nextIs (run 0x00FB (State.reset.setFb [px 0 0])) (fun t => t.fb == [px 2 0] && t.draw) = true := by decide
/-- L2-D10 -/
theorem test_scl_extended : nextIs (run 0x00FC (resetExt.setFb [pxExt 2 0, pxExt 6 0])) (fun t =>
    t.fb == [pxExt 2 0] && t.draw) = true := by decide
/-- L2-D11 -/
theorem test_scl_standard : nextIs (run 0x00FC (State.reset.setFb [px 1 7])) (fun t => t.fb == []) = true := by decide
/-- L2-D13 -/
theorem test_low : nextIs (run 0x00FE resetExt) (fun t => !t.ext && !t.draw) = true := by decide
/-- L2-D12 -/
theorem test_high : nextIs (run 0x00FF State.reset) (fun t => t.ext && !t.draw && t.pc == 0x202) = true := by decide
/-- L2-D15: the sprite wraps on both axes. -/
theorem test_drw_wraps : nextIs (run 0xD011 (sprite 0xC0 0x3F 0x20)) (fun t =>
    t.fb == [px 0 0, px 63 0] && t.reg 0xF == 0 && t.draw) = true := by decide
/-- L2-D16 -/
theorem test_drw_collides : nextIs (run 0xD011 ((sprite 0x80 2 3).setFb [px 2 3])) (fun t =>
    t.fb == [] && t.reg 0xF == 1 && t.draw) = true := by decide
/-- L2-D22: 16 by 16 from 32 bytes. -/
theorem test_drw_extended_shape : nextIs (run 0xD010 (((resetExt.writeBytes 0x300 [0x80, 0x01]).writeBytes 0x31E [0x01, 0x80]).setI 0x300))
    (fun t => t.fb == [pxExt 0 0, pxExt 15 0, pxExt 7 15, pxExt 8 15]) = true := by decide
/-- L2-D19: with `NO_OVERDRAW` and no collision the redraw flag keeps its value. -/
theorem test_drw_no_overdraw : nextIs (run 0xD011 (((reset0 fun p => { p with noOverdraw := true }).writeBytes 0x300 [0x80]).setI 0x300))
    (fun t => t.fb == [px 0 0] && !t.draw) = true := by decide
/-- L2-D25 -/
theorem test_drw_past_the_top : refuses (run 0xD012 (State.reset.setI 0xFFF)) .memOutOfRange = true := by decide

/-- L2-C4 -/
theorem test_ret : nextIs (run 0x00EE (((State.reset.setPc 0x400).setSp 15).setStack (State.reset.stack.set 15 0x204)))
    (fun t => t.pc == 0x206 && t.sp == 16) = true := by decide
/-- L2-C5 -/
theorem test_ret_underflow : refuses (run 0x00EE State.reset) .stackUnderflow = true := by decide
/-- L2-C1 -/
theorem test_jp : nextIs (run 0x1ABC State.reset) (fun t => t.pc == 0xABC) = true := by decide
/-- L2-C2 -/
theorem test_call : nextIs (run 0x2400 (State.reset.setPc 0x204)) (fun t =>
    t.pc == 0x400 && t.sp == 15 && t.stack[15] == 0x204) = true := by decide
/-- L2-C3 -/
theorem test_call_overflow : refuses (run 0x2400 (State.reset.setSp 0)) .stackOverflow = true := by decide
/-- L2-C6, L2-C7 -/
theorem test_seImm : nextIs (run 0x3C0F (State.reset.setReg 0xC 0x0F)) (fun t => t.pc == 0x204) = true ∧
    nextIs (run 0x3C0E (State.reset.setReg 0xC 0x0F)) (fun t => t.pc == 0x202) = true := by decide
/-- L2-C8, L2-C9 -/
theorem test_sneImm : nextIs (run 0x4311 (State.reset.setReg 3 0x10)) (fun t => t.pc == 0x204) = true ∧
    nextIs (run 0x4310 (State.reset.setReg 3 0x10)) (fun t => t.pc == 0x202) = true := by decide
/-- L2-C10, L2-C11 -/
theorem test_seReg : nextIs (run 0x5550 (State.reset.setReg 5 0x99)) (fun t => t.pc == 0x204) = true ∧
    nextIs (run 0x5120 ((State.reset.setReg 1 1).setReg 2 2)) (fun t => t.pc == 0x202) = true := by decide
/-- L2-C12, L2-C13 -/
theorem test_sneReg : nextIs (run 0x9120 ((State.reset.setReg 1 7).setReg 2 8)) (fun t => t.pc == 0x204) = true ∧
    nextIs (run 0x9110 (State.reset.setReg 1 7)) (fun t => t.pc == 0x202) = true := by decide
/-- L2-C15 -/
theorem test_jpV0_does_not_wrap : nextIs (run 0xBFFF (State.reset.setReg 0 0xFF)) (fun t => t.pc == 0x10FE) = true := by decide
/-- L2-C16 -/
theorem test_skip_to_the_top : nextIs (run 0x3000 (State.reset.setPc 0xFFC)) (fun t => t.pc == 0x1000) = true := by decide

/-- L2-A1 -/
theorem test_ldImm : nextIs (run 0x6AFF State.reset) (fun t => t.reg 0xA == 0xFF && t.pc == 0x202) = true := by decide
/-- L2-A2 -/
theorem test_addImm_wraps : nextIs (run 0x7201 (State.reset.setReg 2 0xFF)) (fun t => t.reg 2 == 0 && t.reg 0xF == 0) = true := by decide
/-- L2-A3 -/
theorem test_addImm_into_VF : nextIs (run 0x7F01 (State.reset.setReg 0xF 0xFF)) (fun t => t.reg 0xF == 0) = true := by decide
/-- L2-A4 -/
theorem test_ldReg : nextIs (run 0x8130 (State.reset.setReg 3 0x42)) (fun t => t.reg 1 == 0x42 && t.reg 3 == 0x42) = true := by decide
/-- L2-A5 -/
theorem test_orReg : nextIs (run 0x8121 (((State.reset.setReg 1 0x0C).setReg 2 0x0A).setReg 0xF 7)) (fun t =>
    t.reg 1 == 0x0E && t.reg 0xF == 7) = true := by decide
/-- L2-A6 -/
theorem test_andReg : nextIs (run 0x8122 ((State.reset.setReg 1 0x0C).setReg 2 0x0A)) (fun t => t.reg 1 == 0x08) = true := by decide
/-- L2-A7 -/
theorem test_xorReg : nextIs (run 0x8113 (State.reset.setReg 1 0x5A)) (fun t => t.reg 1 == 0) = true := by decide
/-- L2-A8 -/
theorem test_addReg_carries : nextIs (run 0x8124 ((State.reset.setReg 1 0xFF).setReg 2 1)) (fun t =>
    t.reg 1 == 0 && t.reg 0xF == 1) = true := by decide
/-- L2-A10 -/
theorem test_addReg_into_VF : nextIs (run 0x8F14 ((State.reset.setReg 0xF 0xFF).setReg 1 2)) (fun t => t.reg 0xF == 1) = true := by decide
/-- L2-A12 -/
theorem test_subReg_borrows : nextIs (run 0x8125 ((State.reset.setReg 1 5).setReg 2 7)) (fun t =>
    t.reg 1 == 0xFE && t.reg 0xF == 0) = true := by decide
/-- L2-A13 -/
theorem test_subReg_equal : nextIs (run 0x8125 ((State.reset.setReg 1 9).setReg 2 9)) (fun t =>
    t.reg 1 == 0 && t.reg 0xF == 1) = true := by decide
/-- L2-A15 -/
theorem test_shr_vx : nextIs (run 0x8126 ((State.reset.setReg 1 5).setReg 2 0xFE)) (fun t =>
    t.reg 1 == 2 && t.reg 0xF == 1) = true := by decide
/-- L2-A16 -/
theorem test_shr_vy : nextIs (run 0x8126 (((reset0 fun p => { p with shiftSrc := .vy }).setReg 1 5).setReg 2 0x80)) (fun t =>
    t.reg 1 == 0x40 && t.reg 0xF == 0) = true := by decide
/-- L2-A18 -/
theorem test_subn : nextIs (run 0x8127 ((State.reset.setReg 1 5).setReg 2 7)) (fun t =>
    t.reg 1 == 2 && t.reg 0xF == 1) = true := by decide
/-- L2-A19 -/
theorem test_subn_borrows : nextIs (run 0x8127 ((State.reset.setReg 1 7).setReg 2 5)) (fun t =>
    t.reg 1 == 0xFE && t.reg 0xF == 0) = true := by decide
/-- L2-A20 -/
theorem test_shl : nextIs (run 0x810E (State.reset.setReg 1 0x81)) (fun t => t.reg 1 == 2 && t.reg 0xF == 1) = true := by decide
/-- L2-A21 -/
theorem test_shl_no_bit : nextIs (run 0x810E ((State.reset.setReg 1 0x40).setReg 0xF 1)) (fun t =>
    t.reg 1 == 0x80 && t.reg 0xF == 0) = true := by decide
/-- L2-A22 for every byte the oracle may give: V3 is that byte AND 0F, and the oracle has been asked once. -/
theorem test_rnd : ∃ t, run 0xC30F State.reset = .next t ∧ t.reg 3 = Config.rng 0 &&& 0x0F ∧ t.rngCount = 1 :=
  ⟨_, rfl, rfl, rfl⟩

/-- L2-M1 -/
theorem test_ldI : nextIs (run 0xA123 State.reset) (fun t => t.i == 0x123) = true := by decide
/-- L2-M3, L2-M4 -/
theorem test_addI_past_FFF : nextIs (run 0xF11E ((State.reset.setI 0xFFF).setReg 1 1)) (fun t =>
      t.i == 0x1000 && t.reg 0xF == 0) = true ∧
    nextIs (run 0xF11E (((reset0 fun p => { p with fx1eFlag := .aboveFff }).setI 0xFFF).setReg 1 1)) (fun t =>
      t.i == 0x1000 && t.reg 0xF == 1) = true := by decide
/-- L2-M5 -/
theorem test_addI_wraps : nextIs (run 0xF11E ((State.reset.setI 0xFFFF).setReg 1 2)) (fun t =>
    t.i == 1 && t.reg 0xF == 1) = true := by decide
/-- L2-M6, L2-M7 -/
theorem test_ldF : nextIs (run 0xF329 (State.reset.setReg 3 0x0A)) (fun t => t.i == 0x32) = true ∧
    nextIs (run 0xF329 (State.reset.setReg 3 0xFF)) (fun t => t.i == 0x4FB) = true := by decide
/-- L2-M8 -/
theorem test_ldHf : nextIs (run 0xF330 (State.reset.setReg 3 2)) (fun t => t.i == 0x64) = true := by decide
/-- L2-M9 -/
theorem test_ldB : nextIs (run 0xF033 ((State.reset.setI 0x300).setReg 0 0xFE)) (fun t =>
    t.readBytes 0x300 3 == [2, 5, 4] && t.i == 0x300) = true := by decide
/-- L2-M11 -/
theorem test_ldB_past_the_top : refuses (run 0xF033 (State.reset.setI 0xFFE)) .memOutOfRange = true := by decide
/-- L2-M12 -/
theorem test_stRegs : nextIs (run 0xF255 ((((State.reset.setI 0x300).setReg 0 1).setReg 1 2).setReg 2 3)) (fun t =>
    t.readBytes 0x300 4 == [1, 2, 3, 0] && t.i == 0x303) = true := by decide
/-- L2-M13, L2-M14, L2-M18 -/
theorem test_stRegs_increment : nextIs (run 0xF255 (resetExt.setI 0x300)) (fun t => t.i == 0x300) = true ∧
    nextIs (run 0xF255 ((reset0 fun p => { p with lsIncStd := .x }).setI 0x300)) (fun t => t.i == 0x302) = true ∧
    refuses (run 0xF255 (State.reset.setI 0xFFE)) .memOutOfRange = true := by decide
/-- L2-M16 -/
theorem test_ldRegs_all : nextIs (run 0xFF65 ((State.reset.writeBytes 0x30F [9]).setI 0x300)) (fun t =>
    t.reg 0xF == 9 && t.i == 0x310) = true := by decide
/-- L2-M17 -/
theorem test_ldRegs_to_the_top : nextIs (run 0xF165 ((State.reset.writeBytes 0xFFE [1, 2]).setI 0xFFE)) (fun t =>
    t.reg 0 == 1 && t.reg 1 == 2 && t.i == 0x1000) = true := by decide
/-- L2-M19 -/
theorem test_stFlags : nextIs (run 0xF175 ((State.reset.setReg 0 0xAA).setReg 1 0xBB)) (fun t =>
    t.uflag.toList.take 3 == [0xAA, 0xBB, 0]) = true := by decide
/-- L2-M21 -/
theorem test_stFlags_index : refuses (run 0xF875 State.reset) .userFlagIndexOutOfRange = true := by decide
/-- L2-M20 -/
theorem test_ldFlags : nextIs (run 0xF185 (State.reset.setUflag #v[0xAA, 0xBB, 0, 0, 0, 0, 0, 0])) (fun t =>
    t.reg 0 == 0xAA && t.reg 1 == 0xBB && t.reg 2 == 0) = true := by decide

/-- L2-K1, L2-K2 -/
theorem test_skp : nextIs (run 0xE59E ((State.reset.setReg 5 10).updateKey 10 true)) (fun t => t.pc == 0x204) = true ∧
    nextIs (run 0xE59E (State.reset.setReg 5 10)) (fun t => t.pc == 0x202) = true := by decide
/-- L2-K5 -/
theorem test_skp_index : refuses (run 0xE59E (State.reset.setReg 5 0x10)) .keyIndexOutOfRange = true := by decide
/-- L2-K3, L2-K4 -/
theorem test_sknp : nextIs (run 0xE5A1 (State.reset.setReg 5 10)) (fun t => t.pc == 0x204) = true ∧
    nextIs (run 0xE5A1 ((State.reset.setReg 5 10).updateKey 10 true)) (fun t => t.pc == 0x202) = true := by decide
/-- L2-K6 -/
theorem test_ldVxDt : nextIs (run 0xF307 (State.reset.setDt 60)) (fun t => t.reg 3 == 0x3C) = true := by decide
/-- L2-K9 -/
theorem test_ldVxK_waits : nextIs (run 0xF30A (State.reset.setReg 3 9)) (fun t => t.reg 3 == 9 && t.pc == 0x200) = true := by decide
/-- L2-K10 -/
theorem test_ldVxK_lowest : nextIs (run 0xF30A ((State.reset.updateKey 7 true).updateKey 3 true)) (fun t =>
    t.reg 3 == 3 && t.pc == 0x202) = true := by decide
/-- L2-K7 -/
theorem test_ldDtVx : nextIs (run 0xF315 (State.reset.setReg 3 0x3C)) (fun t => t.dt == 60 && t.st == 0) = true := by decide
/-- L2-K8 -/
theorem test_ldStVx : nextIs (run 0xF318 (State.reset.setReg 3 5)) (fun t => t.st == 5 && t.dt == 0) = true := by decide

/-! ### The machine and its host (95_test_vectors.md L2.F and L2.H) -/

/-- L2-F1: the state keeps all but its status. -/
theorem test_illegal_opcode_faults : faults (step State.reset) (.unknownOpcode 0x200 0x0000) = true ∧
    State.reset.stepCall = State.reset.setStatus (.faulted 0x200 0x0000) := by decide
/-- L2-H1, L2-H3 -/
theorem test_fetch_past_the_top : refuses (step (State.reset.setPc 0xFFF)) (.fetchOutOfRange 0xFFF) = true ∧
    refuses (step (State.reset.setPc 0x10FE)) (.fetchOutOfRange 0x10FE) = true := by decide
/-- L2-H2 -/
theorem test_fetch_the_last_two_bytes : nextIs (step ((State.reset.writeBytes 0xFFE [0x12, 0x00]).setPc 0xFFE)) (fun t =>
    t.pc == 0x200) = true := by decide
/-- L2-H4 -/
theorem test_fetch_is_big_endian : nextIs (step (State.reset.writeBytes 0x200 [0x61, 0x2A])) (fun t => t.reg 1 == 0x2A) = true := by decide
/-- The host's word is fetched and run. -/
theorem test_withFetchWord : step (State.reset.withFetchWord 16 0x6C0F) =
    exec (.ldImm 12 0x0F) (State.reset.withFetchWord 16 0x6C0F) := by rfl
/-- L1-8 -/
theorem test_tick : ((State.reset.setSt 3).tick.dt, (State.reset.setSt 3).tick.st) = (0, 2) := by decide
/-- L2-H7, L2-H8 -/
theorem test_key_and_redraw : (State.reset.updateKey 0xF true).key[15] = true ∧
    (State.reset.setDraw true).clearDraw = State.reset := by decide
/-- L1-9: the image `12 04` is loaded and its jump runs. -/
theorem test_load_and_jump : (HostOp.apply (HostOp.apply State.reset (.loadProgram (some [0x12, 0x04]))) .step).pc = 0x204 := by decide
/-- L2-H11, L2-H12 -/
theorem test_load_short_and_missing :
    (State.reset.hostRun [.loadProgram (some [0xAA, 0xBB, 0xCC]), .loadProgram (some [0x11])]).readBytes 0x200 3 = [0x11, 0xBB, 0xCC] ∧
    State.reset.hostRun [.loadProgram none] = State.reset := by decide
/-- L2-H13: the glyph of 7 stands at 0x023 (20_memory.md R55, R56), and memory above the font is 0. -/
theorem test_reset_memory : State.reset.readBytes 0x23 5 = [0xF0, 0x10, 0x20, 0x40, 0x40] ∧ State.reset.readByte 0xF0 = 0 ∧
    State.reset.pc = 0x200 ∧ State.reset.sp = 16 := by decide
theorem test_reset_memory_is_canonical : Memory.wf State.reset.params.resetByte State.reset.mem = true := by decide
/-- A store that is undone leaves the same list, so equal memories are equal data. -/
theorem test_memory_is_canonical : (State.reset.writeBytes 0x300 [1]).writeBytes 0x300 [0] = State.reset ∧
    Memory.wf State.reset.params.resetByte [(0x300, 0)] = false ∧ Memory.wf State.reset.params.resetByte [(0x301, 1), (0x300, 1)] = false := by
  decide
/-- The snapshot of a fault holds the address and the opcode (60_exceptions.md R224), and the faulted machine only ticks (L2-H14). -/
theorem test_fault_snapshot : (State.reset.stepCall.snapshot.map fun p => (p.pc0, p.op)) = some (0x200, 0x0000) ∧
    State.reset.stepCall.stepCall = State.reset.stepCall ∧ (State.reset.stepCall.setDt 5).tick.dt = 4 := by decide

/-! ### Witnesses: states and operands that meet the hypotheses of the obligations, at the edges of their ranges

Each name is the obligation's, with the clause where it has several. Obligations without hypotheses have none. -/

theorem test_witness_EncodeOfDecodeIsTheOpcode : decode 0xD125 = .ok (.drw 1 2 5) := by decide

theorem test_witness_OpcodeOutsideTheTableFaults : legalOpcode 0xFF85 = true ∧ legalOpcode 0x0000 = false ∧
    State.reset.status = .running ∧ fetch State.reset = .ok 0x0000 := by decide

theorem test_witness_NoTwoTableRowsSelectOneOpcode : (⟨0x8006, 0xF00F⟩ : OpcodeRow) ∈ opcodeTable ∧
    (⟨0x8006, 0xF00F⟩ : OpcodeRow).selects 0x8126 = true := by decide

/-- A machine that has the jump `1200` at its last two addresses, and stands there. -/
def atTheTop : State := (State.reset.writeBytes 0xFFE [0x12, 0x00]).setPc 0xFFE

theorem test_witness_StepRunsTheDecodedInstruction : atTheTop.status = .running ∧ atTheTop.pc.toNat + 1 ≤ 0xFFF ∧
    decodeBytes [atTheTop.readByte atTheTop.pc.toNat, atTheTop.readByte (atTheTop.pc.toNat + 1)] = .ok (.jp 0x200, []) := by decide

theorem test_witness_FetchPastTheTopIsRefused : (State.reset.setPc 0xFFF).status = .running ∧
    0xFFF < (State.reset.setPc 0xFFF).pc.toNat + 1 := by decide

theorem test_witness_UnknownOpcodeIsTheOnlyFault : State.reset.status = .running ∧ fetch State.reset = .ok 0x0000 ∧
    legalOpcode 0x0000 = false ∧ step State.reset = .fault (.unknownOpcode 0x200 0x0000) := ⟨rfl, by decide, by decide, rfl⟩

theorem test_witness_StoppedMachineHasNoFurtherStep : (State.reset.setStatus (.faulted 0x200 0)).status ≠ .running ∧
    (State.reset.setStatus (.refused .stackUnderflow)).status ≠ .running := by decide

theorem test_witness_StopsArePrecise : atTheTop.status = .running ∧ (State.reset.placeOpcode 0x00EE).status = .running := by decide

/-- A state with stored bytes, a lit cell and a live stack entry at the largest address of the invariant. -/
def busy : State :=
  (((State.reset.writeBytes 0x200 [0x00, 0xEE]).setFb [8191]).setSp 15).setStack (State.reset.stack.set 15 0xFFE)

theorem test_witness_EveryStepKeepsTheInvariant : Inv busy := ⟨by decide, by decide, by decide, by decide⟩

theorem test_witness_EveryStepKeepsTheInvariant_steps : nextIs (step busy) (fun t => t.pc == 0x1000) = true := by decide

def someInstructions1 : List Instr :=
  [.cls, .scd 15, .scr, .scl, .low, .high, .jp 0xFFF, .call 0xFFF, .seImm 0 0, .sneImm 0 0, .seReg 0 15, .ldImm 15 255]
def someInstructions2 : List Instr :=
  [.addImm 15 255, .ldReg 0 15, .orReg 0 15, .andReg 0 15, .xorReg 0 15, .addReg 15 0, .subReg 15 0, .shr 15 15, .subn 15 0]
def someInstructions3 : List Instr :=
  [.shl 15 15, .sneReg 0 0, .ldI 0xFFF, .jpV0 0xFFF, .rnd 15 0, .drw 15 15 0, .skp 0, .sknp 0, .ldVxDt 15, .ldVxK 15]
def someInstructions4 : List Instr :=
  [.ldDtVx 15, .ldStVx 15, .addI 15, .ldF 15, .ldHf 15, .ldB 15, .stRegs 15, .ldRegs 15, .stFlags 7, .ldFlags 7]

/-- One instruction for every constructor but `ret`, with operands that complete at `State.reset`. -/
def everyInstruction : List Instr := someInstructions1 ++ someInstructions2 ++ someInstructions3 ++ someInstructions4

/-- The hypothesis `exec i s = .next t` of `InstructionsWriteOnlyWhatTheirRulesName`, `ProgramCounterAfterAnInstruction`,
`RedrawFlagIsOnlySetAndNeverRead` and `SoundTimerIsWrittenAndNeverRead` is met for every constructor. -/
theorem test_witness_every_instruction_completes :
    everyInstruction.all (fun i => nextIs (exec i State.reset) fun _ => true) = true ∧
    nextIs (exec .ret busy) (fun _ => true) = true := by decide

theorem test_witness_InstructionsWriteOnlyWhatTheirRulesName : ¬ WritesReg (.addReg 1 2) 0 ∧ ¬ WritesReg .cls 0xF ∧
    ¬ WritesReg (.ldRegs 14) 0xF := by simp [WritesReg]

theorem test_witness_ProgramCounter_key_down : ∃ k : Fin 16, (State.reset.updateKey 15 true).key[k] = true := by decide

theorem test_witness_RedrawFlag : (State.reset.setDraw true).draw = true ∧ HostOp.tick ≠ .clearDraw ∧ (∀ n, Instr.low ≠ .scd n) ∧
    (∀ x y n, Instr.low ≠ .drw x y n) ∧ exec .ret State.reset = .refused .stackUnderflow := by
  refine ⟨rfl, by decide, ?_, ?_, rfl⟩ <;> intros <;> exact Instr.noConfusion

theorem test_witness_SoundTimer : (0xF318 : Word) &&& 0xF0FF = 0xF018 ∧ (∀ x, Instr.cls ≠ .ldStVx x) ∧
    exec .ret State.reset = .refused .stackUnderflow := ⟨by decide, fun _ => Instr.noConfusion, rfl⟩

theorem test_witness_SelfJumpStandsStill : (State.reset.placeOpcode 0x1200).status = .running ∧
    AtSelfJump (State.reset.placeOpcode 0x1200) := ⟨rfl, 0x200, by decide, by decide⟩

/-- The store writes the opcode that stands next: `F155` at 0x1FE stores to 0x200. -/
theorem test_witness_FetchSeesTheBytesJustStored : ((State.reset.setPc 0x1FE).setI 0x200).i.toNat + (1 : Reg).val ≤ 0xFFF ∧
    ∃ t, exec (.stRegs 1) ((State.reset.setPc 0x1FE).setI 0x200) = .next t ∧ t.pc.toNat = 0x200 + (0 : Reg).val ∧
      (0 : Reg).val + 1 < 16 ∧ (0 : Reg).val + 1 ≤ (1 : Reg).val := ⟨by decide, _, rfl, by decide, by decide, by decide⟩

/-- The last pixel of each screen, the first cell outside the small one, and a row and a column at the edge of what a scroll
moves (`ScrollDownMovesRows`, `ScrollRightMovesColumns`, `ScrollLeftMovesColumns`). -/
theorem test_witness_scrolls : 63 < screenW State.reset.ext ∧ 31 < screenH State.reset.ext ∧ 127 < screenW resetExt.ext ∧
    63 < screenH resetExt.ext ∧ screenW State.reset.ext * screenH State.reset.ext ≤ 2048 ∧ (15 : Nibble).toNat ≤ 15 ∧
    2 = (if State.reset.ext = true then 4 else State.reset.params.hscrollStd) ∧
    4 = (if resetExt.ext = true then 4 else resetExt.params.hscrollStd) ∧ 59 + 4 < screenW State.reset.ext := by decide

/-- A machine with one sprite byte at the last address, whose leftmost bit is set. -/
def spriteAtTheTop : State := (State.reset.writeBytes 0xFFF [0x80]).setI 0xFFF

theorem test_witness_DrawXorsTheSprite : Framebuffer.wf spriteAtTheTop.fb = true ∧ spriteLast 1 spriteAtTheTop ≤ 0xFFF := by decide

theorem test_witness_sprite_hits : SpriteHits 0 1 1 spriteAtTheTop 0 := ⟨0, by decide, 0, by decide, by decide, by decide⟩

theorem test_witness_DrawXorsTheSprite_collides : SpriteCollides 0 1 1 (spriteAtTheTop.setFb [0]) ∧
    Framebuffer.wf (spriteAtTheTop.setFb [0]).fb = true :=
  ⟨⟨0, ⟨0, by decide, 0, by decide, by decide, by decide⟩, by decide⟩, by decide⟩

theorem test_witness_DrawXorsTheSprite_misses : ¬ SpriteCollides 0 1 1 spriteAtTheTop := by
  rintro ⟨c, -, h⟩
  exact Bool.false_ne_true h

theorem test_witness_DrawPastTheTopIsRefused : 0xFFF < spriteLast 2 spriteAtTheTop := by decide

theorem test_witness_DrawingTwiceRestoresThePicture : Framebuffer.wf spriteAtTheTop.fb = true ∧ spriteLast 1 spriteAtTheTop ≤ 0xFFF ∧
    (0 : Reg) ≠ 0xF ∧ (1 : Reg) ≠ 0xF ∧ (∀ c, Framebuffer.lit spriteAtTheTop.fb c = false) ∧
    ∃ c, SpriteHits 0 1 1 spriteAtTheTop c :=
  ⟨by decide, by decide, by decide, by decide, fun _ => rfl, 0, test_witness_sprite_hits⟩

theorem test_witness_ReturnPopsTheCallSite : busy.sp.val < 16 := by decide

theorem test_witness_JumpGoesToItsTarget : (0x1FFF : Word) &&& 0xF000 = 0x1000 ∧ (0x200 : Addr12).setWidth 16 = State.reset.pc ∧
    State.reset.status = .running := by decide

/-- For `CallPushesItsOwnAddress` and `CallThenReturnComesBack`, with the stack empty and with one place left. -/
theorem test_witness_calls : 0 < State.reset.sp.val ∧ 0 < (State.reset.setSp 1).sp.val := by decide

theorem test_witness_StackLimitsAreRefused : State.reset.sp = 16 ∧ (State.reset.setSp 0).sp = 0 := by decide

theorem test_witness_SkipOnImmediate : (0x3C0F : Word) &&& 0xF000 = 0x3000 ∧ (0x4FFF : Word) &&& 0xF000 = 0x4000 := by decide

theorem test_witness_SkipOnRegisters : (0x5550 : Word) &&& 0xF00F = 0x5000 ∧ (0x9FF0 : Word) &&& 0xF00F = 0x9000 ∧
    (0x5121 : Word) &&& 0xF000 = 0x5000 ∧ (0x5121 : Word) &&& 0x000F ≠ 0 ∧ (0x912F : Word) &&& 0xF000 = 0x9000 ∧
    (0x912F : Word) &&& 0x000F ≠ 0 := by decide

theorem test_witness_loads_and_copy : (0x6FFF : Word) &&& 0xF000 = 0x6000 ∧ (0x7FFF : Word) &&& 0xF000 = 0x7000 ∧
    (0x8FF0 : Word) &&& 0xF00F = 0x8000 ∧ (0xAFFF : Word) &&& 0xF000 = 0xA000 := by decide

/-- `SHIFT_SRC` both ways. -/
theorem test_witness_ShiftsPutTheirBitInVF :
    (1 : Byte) = (if (State.reset.setReg 1 1).params.shiftSrc = .vx then (State.reset.setReg 1 1).reg 1 else (State.reset.setReg 1 1).reg 2) ∧
    (reset0 fun p => { p with shiftSrc := .vy }).params.shiftSrc ≠ .vx := by decide

theorem test_witness_RandomByteIsMasked : (0x0F : Byte).getLsbD 7 = false := by decide

theorem test_witness_AddToIndexReportsOverflow : State.reset.params.fx1eFlag = .carry16 ∧
    (reset0 fun p => { p with fx1eFlag := .aboveFff }).params.fx1eFlag = .aboveFff := by decide

theorem test_witness_DecimalDigitsAreStored : (State.reset.setI 0xFFD).i.toNat + 2 ≤ 0xFFF := by decide

/-- For `StoreRegistersWritesThemInOrder` and `LoadRegistersReadsThemInOrder`. -/
theorem test_witness_register_transfers : (State.reset.setI 0xFF0).i.toNat + (15 : Reg).val ≤ 0xFFF ∧
    (State.reset.setI 0xFFF).i.toNat + (0 : Reg).val ≤ 0xFFF := by decide

theorem test_witness_MemoryTransfersPastTheTopAreRefused : 0xFFF < (State.reset.setI 0xFFE).i.toNat + 2 ∧
    0xFFF < (State.reset.setI 0xFF1).i.toNat + (15 : Reg).val := by decide

theorem test_witness_UserFlags : (7 : Reg).val ≤ 7 ∧ (7 : Reg).val < (8 : Reg).val ∧ (7 : Fin 8).val ≤ (7 : Reg).val ∧
    7 < (8 : Reg).val := by decide

theorem test_witness_KeySkipsTestTheKeyOfVx : ((State.reset.setReg 5 15).reg 5).toNat = (15 : Fin 16).val ∧
    15 < ((State.reset.setReg 5 16).reg 5).toNat := by decide

theorem test_witness_WaitForKeyPolls : (State.reset.updateKey 15 true).key[(15 : Fin 16)] = true ∧
    (∀ j : Fin 16, j.val < (15 : Fin 16).val → (State.reset.updateKey 15 true).key[j] = false) ∧
    (∀ k : Fin 16, State.reset.key[k] = false) := by decide

theorem test_witness_DelayTimerIsReadAndWritten : (0xF307 : Word) &&& 0xF0FF = 0xF007 ∧ (0xFF15 : Word) &&& 0xF0FF = 0xF015 ∧
    State.reset.reg 3 = 0 := by decide

theorem test_witness_KeyUpdateSetsTheKeyInstructionsRead : ((State.reset.setReg 5 15).reg 5).toNat = (15 : Fin 16).val := by decide

theorem test_witness_LoadProgramCopiesTheImage : (List.replicate 0xE00 (0xFF : Byte)).length ≤ 0xE00 ∧
    0xE00 < (List.replicate 0xE01 (0xFF : Byte)).length := by
  rw [List.length_replicate, List.length_replicate]
  decide

end Sys2Proof.Tests
end

/-! SUPPORT. Proofs of the statements about the host-read state (10_state.md R28, R29, R36): frames of the updates they use, the
decoding of `FX__` opcodes, the timers, and that `exec` reads neither the redraw flag nor the sound timer. -/

namespace Sys2Proof.Machine

/-! ### Frames compose -/

theorem Part.same_trans {p : Part} {s t u : State} (h : p.same s t) (h' : p.same t u) : p.same s u := by
  cases p with
  | v | mem | fb => exact fun a => (h' a).trans (h a)
  | _ => exact Eq.trans h' h

theorem KeepsAllBut.trans {ps qs : List Part} {s t u : State} (h : KeepsAllBut ps s t) (h' : KeepsAllBut qs t u) :
    KeepsAllBut (ps ++ qs) s u := by
  intro p hp
  rw [List.mem_append, not_or] at hp
  exact Part.same_trans (h p hp.1) (h' p hp.2)

theorem keepsAllBut_setReg (s : State) (x : Reg) (b : Byte) : KeepsAllBut [.v] s (s.setReg x b) := by
  intro p hp
  cases p <;> simp_all [Part.same]

theorem keepsAllBut_setDt (s : State) (b : Byte) : KeepsAllBut [.dt] s (s.setDt b) := by
  intro p hp
  cases p <;> simp_all [Part.same]

theorem keepsAllBut_setSt (s : State) (b : Byte) : KeepsAllBut [.st] s (s.setSt b) := by
  intro p hp
  cases p <;> simp_all [Part.same]

theorem keepsAllBut_setDraw (s : State) (b : Bool) : KeepsAllBut [.draw] s (s.setDraw b) := by
  intro p hp
  cases p <;> simp_all [Part.same]

theorem keepsAllBut_advance (s : State) : KeepsAllBut [.pc] s s.advance := by
  intro p hp
  cases p <;> simp_all [Part.same]

/-- A register write and the advance after it are the whole of `RegResult`. -/
theorem regResult_setReg_advance (x : Reg) (b : Byte) (s : State) : RegResult x b s (s.setReg x b).advance :=
  ⟨s.setReg_reg_same x b, fun _ hr => s.setReg_reg_other b (by simpa using hr), rfl,
    (keepsAllBut_setReg s x b).trans (keepsAllBut_advance _)⟩

/-! ### Opcodes of format `FXss` (30_encoding.md R73, R74) -/

theorem fieldN1_and_F0FF (op : Word) : fieldN1 (op &&& 0xF0FF) = fieldN1 op := by
  apply BitVec.eq_of_getLsbD_eq; intro j hj
  simp only [fieldN1, BitVec.getLsbD_extractLsb', BitVec.getLsbD_and]
  interval_cases j <;> simp

theorem fieldNN_and_F0FF (op : Word) : fieldNN (op &&& 0xF0FF) = fieldNN op := by
  apply BitVec.eq_of_getLsbD_eq; intro j hj
  simp only [fieldNN, BitVec.getLsbD_extractLsb', BitVec.getLsbD_and]
  interval_cases j <;> simp

/-- An opcode that the mask 0xF0FF leaves as `FXss` with X = 0 is `FXss`, X its own field. -/
theorem eq_packXNN_of_and_F0FF {op : Word} {n1 : Nibble} {ss : Byte} (h : op &&& 0xF0FF = packXNN n1 0 ss) :
    op = packXNN n1 (fieldX op) ss := by
  have h1 : fieldN1 op = n1 := by rw [← fieldN1_and_F0FF, h, fieldN1_packXNN]
  have h2 : fieldNN op = ss := by rw [← fieldNN_and_F0FF, h, fieldNN_packXNN]
  rw [← h1, ← h2, packXNN_fields]

/-- The primary opcode 0xF leaves the choice to the low byte. -/
theorem decode_packXNN_F (x : Reg) (ss : Byte) : decode (packXNN 0xF x ss) = decodeMisc (packXNN 0xF x ss) := by
  rw [decode, fieldN1_packXNN]
  rfl

theorem decode_encode_ldVxDt (x : Reg) : decode (encode (.ldVxDt x)) = .ok (.ldVxDt x) := by
  rw [encode, decode_packXNN_F, decodeMisc, fieldNN_packXNN, fieldX_packXNN]
  rfl

theorem decode_encode_ldDtVx (x : Reg) : decode (encode (.ldDtVx x)) = .ok (.ldDtVx x) := by
  rw [encode, decode_packXNN_F, decodeMisc, fieldNN_packXNN, fieldX_packXNN]
  rfl

theorem decode_encode_ldStVx (x : Reg) : decode (encode (.ldStVx x)) = .ok (.ldStVx x) := by
  rw [encode, decode_packXNN_F, decodeMisc, fieldNN_packXNN, fieldX_packXNN]
  rfl

/-! ### Timers (60_exceptions.md R232, R234) -/

theorem countDown_toNat (b : Byte) : (countDown b).toNat = b.toNat - 1 := by
  unfold countDown
  split <;> bv_omega

@[simp] theorem State.tick_dt (s : State) : s.tick.dt = countDown s.dt := rfl

@[simp] theorem State.tick_st (s : State) : s.tick.st = countDown s.st := rfl

theorem State.toneOn_iff (s : State) : s.toneOn = true ↔ 0 < s.st.toNat := decide_eq_true_iff

/-- Settles O56: both instructions are one update and the advance, and a tick is `countDown`. -/
theorem delayTimerIsReadAndWritten : Obligations.DelayTimerIsReadAndWritten := by
  refine ⟨fun op => ⟨fun h => ?_, fun h => ?_⟩, fun x s => ⟨⟨_, rfl, regResult_setReg_advance x s.dt s⟩, ?_⟩,
    fun s => countDown_toNat s.dt⟩
  · exact (congrArg decode (eq_packXNN_of_and_F0FF (n1 := 0xF) (ss := 0x07) h)).trans (decode_encode_ldVxDt (fieldX op))
  · exact (congrArg decode (eq_packXNN_of_and_F0FF (n1 := 0xF) (ss := 0x15) h)).trans (decode_encode_ldDtVx (fieldX op))
  · refine ⟨(s.setDt (s.reg x)).advance, rfl, rfl, fun hx => ?_, rfl, (keepsAllBut_setDt s _).trans (keepsAllBut_advance _)⟩
    rw [State.tick_dt, State.advance_dt, State.setDt_dt, hx]
    rfl

/-! ### Answers compared up to an update of the next state -/

/-- The answer with `f` applied to the next state, if there is one. -/
def mapNext (f : State → State) : Result → Result
  | .next t => .next (f t)
  | .fault r => .fault r
  | .refused r => .refused r

theorem mapNext_guardMem (f : State → State) (last : Nat) (r : Result) :
    mapNext f (guardMem last r) = guardMem last (mapNext f r) := by
  unfold guardMem
  split <;> rfl

/-- Two answers that agree after `f` end the same way, in next states that agree after `f`. -/
theorem next_or_refused_of_mapNext_eq {f : State → State} {o o' : Result} (h : mapNext f o' = mapNext f o) :
    (∀ t, o = .next t → ∃ u, o' = .next u ∧ f u = f t) ∧ (∀ r, o = .refused r → o' = .refused r) := by
  cases o <;> cases o' <;> simp_all [mapNext]

/-- What changes nothing in an answer changes nothing in its next state. -/
theorem eq_of_mapNext_eq_next {f : State → State} {o : Result} {t : State} (h : mapNext f o = o) (ht : o = .next t) : f t = t := by
  subst ht
  simpa [mapNext] using h

/-! ### `exec` reads neither the redraw flag nor the sound timer (10_state.md R29, R36)

Both are covered by one case analysis: `exec` commutes with changing the two fields by any functions `g` and `h`, where each
function may differ from the identity only if the instruction does not write its field. -/

/-- The redraw flag changed by `g` and the sound timer by `h`. -/
def State.mapDrawSt (g : Bool → Bool) (h : Byte → Byte) (s : State) : State := (s.setDraw (g s.draw)).setSt (h s.st)

theorem exec_mapDrawSt {g : Bool → Bool} {h : Byte → Byte} {i : Instr} (hg : .draw ∈ mayWrite i → g = id)
    (hh : .st ∈ mayWrite i → h = id) (s : State) :
    exec i (s.mapDrawSt g h) = mapNext (State.mapDrawSt g h) (exec i s) := by
  cases i with
  | cls | scr | scl | scd =>
    obtain rfl := hg (by simp [mayWrite])
    rfl
  | drw =>
    obtain rfl := hg (by simp [mayWrite])
    symm
    exact mapNext_guardMem _ _ _
  | ldStVx =>
    obtain rfl := hh (by simp [mayWrite])
    rfl
  | ldB | stRegs | ldRegs =>
    symm
    exact mapNext_guardMem _ _ _
  | ret | call =>
    symm
    exact apply_dite (mapNext _) _ _ _
  | skp | sknp | stFlags | ldFlags =>
    symm
    exact apply_ite (mapNext _) _ _ _
  | ldVxK x =>
    have hk : (s.mapDrawSt g h).lowestKey = s.lowestKey := rfl
    simp only [exec, execLdVxK, hk]
    cases s.lowestKey <;> rfl
  | _ => rfl

/-- An instruction that does not write the redraw flag passes any value of it on. -/
theorem exec_setDraw {i : Instr} (hi : .draw ∉ mayWrite i) (s : State) (b : Bool) :
    exec i (s.setDraw b) = mapNext (·.setDraw b) (exec i s) :=
  exec_mapDrawSt (g := fun _ => b) (h := id) (fun hm => absurd hm hi) (fun _ => rfl) s

/-- An instruction that does not write the sound timer passes any value of it on. -/
theorem exec_setSt {i : Instr} (hi : .st ∉ mayWrite i) (s : State) (b : Byte) :
    exec i (s.setSt b) = mapNext (·.setSt b) (exec i s) :=
  exec_mapDrawSt (g := id) (h := fun _ => b) (fun _ => rfl) (fun hm => absurd hm hi) s

theorem exec_keeps_draw {i : Instr} {s t : State} (h : exec i s = .next t) (hi : .draw ∉ mayWrite i) : t.draw = s.draw := by
  have ht : t.setDraw s.draw = t := eq_of_mapNext_eq_next (exec_setDraw hi s s.draw).symm h
  rw [← ht, State.setDraw_draw]

theorem exec_keeps_st {i : Instr} {s t : State} (h : exec i s = .next t) (hi : .st ∉ mayWrite i) : t.st = s.st := by
  have ht : t.setSt s.st = t := eq_of_mapNext_eq_next (exec_setSt hi s s.st).symm h
  rw [← ht, State.setSt_st]

/-! ### The sound timer -/

theorem st_mem_mayWrite {i : Instr} : .st ∈ mayWrite i ↔ ∃ x, i = .ldStVx x := by
  cases i <;> simp [mayWrite]

/-- The answer does not depend on the sound timer, up to the sound timer. -/
theorem exec_setSt_erased (i : Instr) (s : State) (b : Byte) :
    mapNext (·.setSt 0) (exec i (s.setSt b)) = mapNext (·.setSt 0) (exec i s) := by
  by_cases hi : .st ∈ mayWrite i
  · obtain ⟨x, rfl⟩ := st_mem_mayWrite.1 hi
    rfl
  · rw [exec_setSt hi]
    cases exec i s <;> rfl

/-- Settles O18: `FX18` is one update and the advance, and every other instruction commutes with `setSt`. -/
theorem soundTimerIsWrittenAndNeverRead : Obligations.SoundTimerIsWrittenAndNeverRead := by
  refine ⟨fun op h => ?_, fun x s => ?_, fun i s t h hi => ?_, fun i s b => ?_, fun s => countDown_toNat s.st,
    State.toneOn_iff⟩
  · exact (congrArg decode (eq_packXNN_of_and_F0FF (n1 := 0xF) (ss := 0x18) h)).trans (decode_encode_ldStVx (fieldX op))
  · exact ⟨(s.setSt (s.reg x)).advance, rfl, rfl, State.toneOn_iff _, rfl,
      (keepsAllBut_setSt s _).trans (keepsAllBut_advance _)⟩
  · exact exec_keeps_st h fun hm => (st_mem_mayWrite.1 hm).elim hi
  · exact next_or_refused_of_mapNext_eq (exec_setSt_erased i s b)

/-! ### The redraw flag -/

/-- `00E0` and the scrolls, which set the redraw flag whatever they do. -/
def SetsDraw (i : Instr) : Prop := i = .cls ∨ (∃ n, i = .scd n) ∨ i = .scr ∨ i = .scl

theorem draw_mem_mayWrite {i : Instr} : .draw ∈ mayWrite i ↔ SetsDraw i ∨ ∃ x y n, i = .drw x y n := by
  cases i <;> simp [mayWrite, SetsDraw]

theorem draw_of_setsDraw {i : Instr} {s t : State} (h : exec i s = .next t) (hi : SetsDraw i) : t.draw = true := by
  obtain rfl | ⟨n, rfl⟩ | rfl | rfl := hi <;> cases h <;> rfl

/-- An instruction that sets the flag ends in the same state whatever the flag was. -/
theorem exec_setDraw_of_setsDraw {i : Instr} (hi : SetsDraw i) (s : State) (b : Bool) : exec i (s.setDraw b) = exec i s := by
  obtain rfl | ⟨n, rfl⟩ | rfl | rfl := hi <;> rfl

/-- A draw writes the flag by its redraw rule (40_display.md R108). -/
theorem exec_drw_draw {x y : Reg} {n : Nibble} {s t : State} (h : exec (.drw x y n) s = .next t) :
    ∃ coll, t.draw = s.drawFlagAfter coll := by
  obtain ⟨-, ht⟩ := guardMem_next h
  cases ht
  exact ⟨_, rfl⟩

/-- The answer of a draw does not depend on the redraw flag, up to the redraw flag. -/
theorem exec_drw_setDraw_erased (x y : Reg) (n : Nibble) (s : State) (b : Bool) :
    mapNext (·.setDraw false) (exec (.drw x y n) (s.setDraw b)) = mapNext (·.setDraw false) (exec (.drw x y n) s) := by
  simp only [exec, execDrw, mapNext_guardMem]
  rfl

/-- The answer does not depend on the redraw flag, up to the redraw flag. -/
theorem exec_setDraw_erased (i : Instr) (s : State) (b : Bool) :
    mapNext (·.setDraw false) (exec i (s.setDraw b)) = mapNext (·.setDraw false) (exec i s) := by
  by_cases hi : .draw ∈ mayWrite i
  · obtain hi | ⟨x, y, n, rfl⟩ := draw_mem_mayWrite.1 hi
    · rw [exec_setDraw_of_setsDraw hi]
    · exact exec_drw_setDraw_erased x y n s b
  · rw [exec_setDraw hi]
    cases exec i s <;> rfl

/-- No instruction clears the redraw flag. -/
theorem exec_draw_stays_set {i : Instr} {s t : State} (h : exec i s = .next t) (hs : s.draw = true) : t.draw = true := by
  by_cases hi : .draw ∈ mayWrite i
  · obtain hi | ⟨x, y, n, rfl⟩ := draw_mem_mayWrite.1 hi
    · exact draw_of_setsDraw h hi
    · obtain ⟨coll, ht⟩ := exec_drw_draw h
      rw [ht, State.drawFlagAfter, hs, Bool.true_or]
  · rw [exec_keeps_draw h hi, hs]

theorem State.stepCall_draw_stays_set {s : State} (hs : s.draw = true) : s.stepCall.draw = true := by
  obtain h | ⟨u, hu⟩ := s.stepCall_cases
  · obtain ⟨-, op, i, -, -, hi⟩ := step_next h
    exact exec_draw_stays_set hi hs
  · rw [hu, State.setStatus_draw, hs]

theorem State.afterLoad_loadProgram_draw (s : State) (source : Option (List Byte)) :
    (s.afterLoad (s.loadProgram source)).draw = s.draw := by
  cases source with
  | none => rfl
  | some bytes =>
    unfold State.loadProgram
    by_cases hlen : bytes.length > programCapacity
    · simp only [hlen, if_true, State.afterLoad]
      split <;> rfl
    · simp only [hlen, if_false, State.afterLoad, State.writeBytes_draw]

theorem HostOp.apply_draw_stays_set {s : State} {op : HostOp} (hop : op ≠ .clearDraw) (hs : s.draw = true) :
    (HostOp.apply s op).draw = true := by
  cases op with
  | step => exact State.stepCall_draw_stays_set hs
  | tick | updateKey => exact hs
  | clearDraw => exact absurd rfl hop
  | loadProgram source => exact (s.afterLoad_loadProgram_draw source).trans hs

/-- Settles O17: the display instructions are taken by name, and every other instruction commutes with `setDraw`. -/
theorem redrawFlagIsOnlySetAndNeverRead : Obligations.RedrawFlagIsOnlySetAndNeverRead := by
  refine ⟨fun i s t h => ⟨exec_draw_stays_set h, draw_of_setsDraw h, fun hcls hscd hscr hscl hdrw => ?_⟩,
    fun i s b => next_or_refused_of_mapNext_eq (exec_setDraw_erased i s b),
    fun s => ⟨rfl, keepsAllBut_setDraw s false⟩, fun s op => HostOp.apply_draw_stays_set⟩
  refine exec_keeps_draw h fun hm => ?_
  obtain (rfl | ⟨n, rfl⟩ | rfl | rfl) | ⟨x, y, n, rfl⟩ := draw_mem_mayWrite.1 hm
  · exact hcls rfl
  · exact hscd n rfl
  · exact hscr rfl
  · exact hscl rfl
  · exact hdrw x y n rfl

end Sys2Proof.Machine

/-! SUPPORT. Proofs of the statements about the encoding (30_encoding.md R78, R84): the decoder against the table of R76, the step on
an illegal opcode, and where `PC` stands after an instruction. -/

namespace Sys2Proof.Laws.TableRow

/-- The lemmas of this namespace as one. -/
theorem statement_holds : (i : Instr) → Statement i
  | .cls => cls
  | .ret => ret
  | .scd n => scd n
  | .scr => scr
  | .scl => scl
  | .low => low
  | .high => high
  | .jp nnn => jp nnn
  | .call nnn => call nnn
  | .seImm x nn => seImm x nn
  | .sneImm x nn => sneImm x nn
  | .seReg x y => seReg x y
  | .ldImm x nn => ldImm x nn
  | .addImm x nn => addImm x nn
  | .ldReg x y => ldReg x y
  | .orReg x y => orReg x y
  | .andReg x y => andReg x y
  | .xorReg x y => xorReg x y
  | .addReg x y => addReg x y
  | .subReg x y => subReg x y
  | .shr x y => shr x y
  | .subn x y => subn x y
  | .shl x y => shl x y
  | .sneReg x y => sneReg x y
  | .ldI nnn => ldI nnn
  | .jpV0 nnn => jpV0 nnn
  | .rnd x nn => rnd x nn
  | .drw x y n => drw x y n
  | .skp x => skp x
  | .sknp x => sknp x
  | .ldVxDt x => ldVxDt x
  | .ldVxK x => ldVxK x
  | .ldDtVx x => ldDtVx x
  | .ldStVx x => ldStVx x
  | .addI x => addI x
  | .ldF x => ldF x
  | .ldHf x => ldHf x
  | .ldB x => ldB x
  | .stRegs x => stRegs x
  | .ldRegs x => ldRegs x
  | .stFlags x => stFlags x
  | .ldFlags x => ldFlags x

end Sys2Proof.Laws.TableRow

namespace Sys2Proof

/-! ### What the decoder answers: an instruction with that encoding, or the rejection of that opcode -/

/-- An accepted opcode is the encoding of the instruction answered, and a rejected one is named in the error. -/
def DecodesFaithfully (op : Word) : Except DecodeError Instr → Prop
  | .ok i => encode i = op
  | .error e => e = .unknownOpcode op

section
variable {op : Word} {n1 n : Nibble} {nn : Byte}

theorem packNNN_of_field (h1 : fieldN1 op = n1) : packNNN n1 (fieldNNN op) = op := by
  rw [← h1, packNNN_fields]

theorem packXNN_of_field (h1 : fieldN1 op = n1) : packXNN n1 (fieldX op) (fieldNN op) = op := by
  rw [← h1, packXNN_fields]

theorem packXNN_of_fields (h1 : fieldN1 op = n1) (hNN : fieldNN op = nn) : packXNN n1 (fieldX op) nn = op := by
  rw [← hNN, packXNN_of_field h1]

theorem packXYN_of_field (h1 : fieldN1 op = n1) : packXYN n1 (fieldX op) (fieldY op) (fieldN op) = op := by
  rw [← h1, packXYN_fields]

theorem packXYN_of_fields (h1 : fieldN1 op = n1) (hN : fieldN op = n) : packXYN n1 (fieldX op) (fieldY op) n = op := by
  rw [← hN, packXYN_of_field h1]

/-- `00CN` from its fields. -/
theorem append_fieldN_of_fields (hhi : op.extractLsb' 8 8 = 0x00#8) (hC : op.extractLsb' 4 4 = 0xC#4) :
    0x00C#12 ++ fieldN op = op := by
  have h12 : op.extractLsb' 4 12 = 0x00C#12 := by
    rw [show (0x00C#12) = 0x00#8 ++ 0xC#4 from rfl, ← hhi, ← hC]
    exact (BitVec.extractLsb'_append_extractLsb'_eq_extractLsb' (x := op) (start₁ := 4) (len₁ := 4) rfl).symm
  rw [← h12]
  exact (BitVec.extractLsb'_append_extractLsb'_eq_extractLsb' rfl).trans (BitVec.extractLsb'_eq_self)

/-- `00ss` from its fields. -/
theorem opcodeOfBytes_of_fields (hhi : op.extractLsb' 8 8 = 0x00#8) (hNN : fieldNN op = nn) : opcodeOfBytes 0x00#8 nn = op := by
  rw [← hhi, ← hNN]
  exact opcodeOfBytes_bytesOfOpcode op

theorem decodeSystem_faithful (op : Word) : DecodesFaithfully op (decodeSystem op) := by
  unfold decodeSystem
  split
  next hhi =>
    split
    next hC => exact append_fieldN_of_fields hhi hC
    next =>
      split
      case h_7 => rfl
      all_goals next hNN => exact opcodeOfBytes_of_fields hhi hNN
  next => rfl

theorem decodeAlu_faithful (h1 : fieldN1 op = 0x8) : DecodesFaithfully op (decodeAlu op) := by
  unfold decodeAlu
  split
  case h_10 => rfl
  all_goals next hN => exact packXYN_of_fields h1 hN

theorem decodeKey_faithful (h1 : fieldN1 op = 0xE) : DecodesFaithfully op (decodeKey op) := by
  unfold decodeKey
  split
  case h_3 => rfl
  all_goals next hNN => exact packXNN_of_fields h1 hNN

theorem decodeMisc_faithful (h1 : fieldN1 op = 0xF) : DecodesFaithfully op (decodeMisc op) := by
  unfold decodeMisc
  split
  case h_13 => rfl
  all_goals next hNN => exact packXNN_of_fields h1 hNN

theorem decode_faithful (op : Word) : DecodesFaithfully op (decode op) := by
  unfold decode
  split
  case h_1 => exact decodeSystem_faithful op
  case h_9 h1 => exact decodeAlu_faithful h1
  case h_15 h1 => exact decodeKey_faithful h1
  case h_16 =>
    have h1 : fieldN1 op = 0xF := by
      simp only [imp_false] at *
      bv_omega
    exact decodeMisc_faithful h1
  case h_6 h1 | h_10 h1 =>
    split
    next hN => exact packXYN_of_fields h1 hN
    next => rfl
  case h_14 h1 => exact packXYN_of_field h1
  case h_4 h1 | h_5 h1 | h_7 h1 | h_8 h1 | h_13 h1 => exact packXNN_of_field h1
  all_goals next h1 => exact packNNN_of_field h1

theorem encode_of_decode {i : Instr} (h : decode op = .ok i) : encode i = op := by
  have hd := decode_faithful op
  rwa [h] at hd

theorem eq_unknownOpcode_of_decode {e : DecodeError} (h : decode op = .error e) : e = .unknownOpcode op := by
  have hd := decode_faithful op
  rwa [h] at hd

/-! ### The decoder accepts what a row of the table selects (30_encoding.md R76, R78) -/

/-- The row of a decoded instruction is in the table and selects the opcode. -/
theorem row_of_decode {i : Instr} (h : decode op = .ok i) : i.row ∈ opcodeTable ∧ i.row.selects op = true := by
  obtain ⟨hsel, hmem, -⟩ := Laws.TableRow.statement_holds i
  exact ⟨hmem, encode_of_decode h ▸ hsel⟩

/-- Each row is that of an instruction: its pattern is an opcode of the row. -/
theorem decode_pattern : ∀ r ∈ opcodeTable, (decode r.pattern).map Instr.row = .ok r := by decide

theorem exists_row_eq {r : OpcodeRow} (h : r ∈ opcodeTable) : ∃ i : Instr, i.row = r := by
  have hd := decode_pattern r h
  cases hi : decode r.pattern with
  | ok i =>
    rw [hi] at hd
    exact ⟨i, Except.ok.inj hd⟩
  | error e =>
    rw [hi] at hd
    cases hd

/-- Where the mask of a row is all ones, an opcode the row selects has the bits of the pattern. -/
theorem extractLsb'_of_selects {r : OpcodeRow} (h : r.selects op = true) (a k : Nat)
    (hm : r.mask.extractLsb' a k = BitVec.allOnes k) : op.extractLsb' a k = r.pattern.extractLsb' a k := by
  have hand : op &&& r.mask = r.pattern := eq_of_beq h
  rw [← hand, BitVec.extractLsb'_and, hm, BitVec.and_allOnes]

theorem exists_decode_of_row_selects {i : Instr} (h : i.row.selects op = true) : ∃ j, decode op = .ok j := by
  have hbits := extractLsb'_of_selects h
  have h1 : fieldN1 op = fieldN1 i.row.pattern := hbits 12 4 (by cases i <;> simp only [Instr.row] <;> rfl)
  cases i with simp only [Instr.row] at h1 hbits
  | cls | ret | scr | scl | low | high =>
    obtain rfl : op = _ := by simpa using hbits 0 16 rfl
    exact ⟨_, rfl⟩
  | scd =>
    rw [decode, h1]
    exact ⟨_, (if_pos (hbits 8 8 rfl)).trans (if_pos (hbits 4 4 rfl))⟩
  | seReg | sneReg =>
    rw [decode, h1]
    exact ⟨_, if_pos (hbits 0 4 rfl)⟩
  | ldReg | orReg | andReg | xorReg | addReg | subReg | shr | subn | shl =>
    have hN : fieldN op = _ := hbits 0 4 rfl
    rw [decode, h1]
    change ∃ j, decodeAlu op = .ok j
    rw [decodeAlu, hN]
    exact ⟨_, rfl⟩
  | skp | sknp =>
    have hNN : fieldNN op = _ := hbits 0 8 rfl
    rw [decode, h1]
    change ∃ j, decodeKey op = .ok j
    rw [decodeKey, hNN]
    exact ⟨_, rfl⟩
  | ldVxDt | ldVxK | ldDtVx | ldStVx | addI | ldF | ldHf | ldB | stRegs | ldRegs | stFlags | ldFlags =>
    have hNN : fieldNN op = _ := hbits 0 8 rfl
    rw [decode, h1]
    change ∃ j, decodeMisc op = .ok j
    rw [decodeMisc, hNN]
    exact ⟨_, rfl⟩
  | _ =>
    rw [decode, h1]
    exact ⟨_, rfl⟩

theorem legalOpcode_iff : legalOpcode op = true ↔ ∃ r ∈ opcodeTable, r.selects op = true := List.any_eq_true

theorem exists_decode_of_legal (h : legalOpcode op = true) : ∃ i, decode op = .ok i := by
  obtain ⟨r, hr, hsel⟩ := legalOpcode_iff.1 h
  obtain ⟨i, rfl⟩ := exists_row_eq hr
  exact exists_decode_of_row_selects hsel

theorem decode_of_illegal (h : legalOpcode op = false) : decode op = .error (.unknownOpcode op) := by
  cases hd : decode op with
  | ok i => exact absurd (legalOpcode_iff.2 ⟨i.row, row_of_decode hd⟩) (Bool.eq_false_iff.1 h)
  | error e => rw [eq_unknownOpcode_of_decode hd]

end

end Sys2Proof

namespace Sys2Proof.Machine

/-! ### The step on an illegal opcode -/

theorem step_of_decode_error {s : State} {op : Word} {e : DecodeError} (hs : s.status = .running) (hf : fetch s = .ok op)
    (hd : decode op = .error e) : step s = .fault (.unknownOpcode s.pc op) := by
  simp only [step, hs, hf, hd, raiseUnknownOpcode]

theorem keepsAllBut_setStatus (s : State) (u : Status) : KeepsAllBut [.status] s (s.setStatus u) := by
  intro p hp
  cases p <;> simp_all [Part.same]

theorem keepsAllBut_stepCall_of_fault {s : State} {f : Fault} (h : step s = .fault f) : KeepsAllBut [.status] s s.stepCall := by
  rw [State.stepCall, h]
  exact keepsAllBut_setStatus s _

/-- Settles O3: what a row selects the decoder accepts, and what it accepts the row of the answer selects. -/
theorem opcodeOutsideTheTableFaults : Obligations.OpcodeOutsideTheTableFaults := by
  refine fun op => ⟨fun hl => ?_, fun hl => ⟨decode_of_illegal hl, fun s hs hf => ?_⟩⟩
  · obtain ⟨i, hi⟩ := exists_decode_of_legal hl
    exact ⟨i, hi, row_of_decode hi⟩
  · have hstep := step_of_decode_error hs hf (decode_of_illegal hl)
    exact ⟨hstep, keepsAllBut_stepCall_of_fault hstep⟩

/-! ### Where `PC` stands after an instruction (30_encoding.md R84) -/

theorem target_toNat (nnn : Addr12) : (target nnn).toNat = nnn.toNat :=
  BitVec.toNat_setWidth_of_le (by decide)

/-- An answer behind a refusal, given as a next state, is that state. -/
theorem ite_refuse_next {c : Prop} [Decidable c] {r : Refusal} {u t : State}
    (h : (if c then refuse r else .next u) = Host.Outcome.next t) : t = u := by
  unfold refuse at h
  split at h <;> cases h
  rfl

theorem execCall_pc {nnn : Addr12} {s t : State} (h : execCall nnn s = .next t) : t.pc = target nnn := by
  unfold execCall refuse at h
  split at h <;> cases h
  rfl

theorem State.lowestKey_isSome_iff (s : State) : s.lowestKey.isSome ↔ ∃ k : Fin 16, s.key[k] = true := by
  rw [← not_iff_not, not_exists, Option.not_isSome_iff_eq_none, State.lowestKey_none, Fin.forall_iff]
  simp only [← State.keyDown_eq, Bool.not_eq_true]

theorem execLdVxK_pc {x : Reg} {s t : State} (h : execLdVxK x s = .next t) :
    t.pc = if ∃ k : Fin 16, s.key[k] = true then s.pc + 2 else s.pc := by
  simp only [← State.lowestKey_isSome_iff]
  unfold execLdVxK at h
  split at h
  next k hk =>
    cases h
    simp [hk]
  next hk =>
    cases h
    simp [hk]

theorem State.skipIf_pc_cases (s : State) (c : Bool) : (s.skipIf c).pc = s.pc + 4 ∨ (s.skipIf c).pc = s.pc + 2 := by
  cases c
  · exact .inr rfl
  · exact .inl rfl

/-- Settles O16: an instruction with no rule of its own for `PC` ends in `advance`, a skip in `skipIf`. -/
theorem programCounterAfterAnInstruction : Obligations.ProgramCounterAfterAnInstruction := by
  intro i s t h
  cases i with
  | ret | jpV0 => trivial
  | jp nnn =>
    cases h
    exact target_toNat nnn
  | call nnn => exact (congrArg BitVec.toNat (execCall_pc h)).trans (target_toNat nnn)
  | seImm | sneImm | seReg | sneReg =>
    cases h
    simp
  | skp | sknp =>
    rw [ite_refuse_next h]
    exact s.skipIf_pc_cases _
  | ldVxK => exact execLdVxK_pc h
  | drw | ldB | stRegs | ldRegs =>
    obtain ⟨-, ht⟩ := guardMem_next h
    cases ht
    rfl
  | stFlags | ldFlags =>
    rw [ite_refuse_next h]
    rfl
  | _ =>
    cases h
    rfl

end Sys2Proof.Machine

/-! SUPPORT. Proofs of the statements about the control flow (41_control_flow.md R123, R124): the opcodes a primary opcode alone selects,
and the skips. -/

namespace Sys2Proof.Machine

/-! ### Opcodes whose primary opcode alone selects the instruction (30_encoding.md R74) -/

theorem fieldN1_of_and_F000 {op p : Word} (h : op &&& 0xF000 = p) : fieldN1 op = fieldN1 p :=
  have hmask : (0xF000 : Word).extractLsb' 12 4 = BitVec.allOnes 4 := by decide
  extractLsb'_of_selects (r := ⟨p, 0xF000⟩) (beq_iff_eq.2 h) 12 4 hmask

theorem decode_seImm_of_fieldN1 {op : Word} (h : fieldN1 op = 0x3) : decode op = .ok (.seImm (fieldX op) (fieldNN op)) := by
  rw [decode, h]
  rfl

theorem decode_sneImm_of_fieldN1 {op : Word} (h : fieldN1 op = 0x4) : decode op = .ok (.sneImm (fieldX op) (fieldNN op)) := by
  rw [decode, h]
  rfl

/-! ### Skips -/

theorem keepsAllBut_skipIf (s : State) (c : Bool) : KeepsAllBut [.pc] s (s.skipIf c) := by
  intro p hp
  cases p <;> simp_all [Part.same]

theorem exec_seImm (x : Reg) (nn : Byte) (s : State) : exec (.seImm x nn) s = .next (s.skipIf (s.reg x == nn)) := rfl

theorem exec_sneImm (x : Reg) (nn : Byte) (s : State) : exec (.sneImm x nn) s = .next (s.skipIf (s.reg x != nn)) := rfl

/-- Settles O34: the primary opcode fixes the decoding, and both instructions are `skipIf` of their comparison. -/
theorem skipOnImmediate : Obligations.SkipOnImmediate := by
  refine ⟨fun op h => decode_seImm_of_fieldN1 (fieldN1_of_and_F000 h), fun op h => decode_sneImm_of_fieldN1 (fieldN1_of_and_F000 h),
    fun x nn s => ⟨⟨_, exec_seImm x nn s, ?_, keepsAllBut_skipIf s _⟩, ⟨_, exec_sneImm x nn s, ?_, keepsAllBut_skipIf s _⟩⟩⟩
  · simp only [State.skipIf_pc, beq_iff_eq]
  · simp only [State.skipIf_pc, bne_iff_ne]

end Sys2Proof.Machine

/-! SUPPORT. Proofs of the statements about the arithmetic and logic instructions (42_alu.md R142, R143): the two with an immediate
operand, whose whole effect is one register write and the advance. -/

namespace Sys2Proof.Machine

theorem decode_ldImm_of_fieldN1 {op : Word} (h : fieldN1 op = 0x6) : decode op = .ok (.ldImm (fieldX op) (fieldNN op)) := by
  rw [decode, h]
  rfl

theorem decode_addImm_of_fieldN1 {op : Word} (h : fieldN1 op = 0x7) : decode op = .ok (.addImm (fieldX op) (fieldNN op)) := by
  rw [decode, h]
  rfl

theorem exec_ldImm (x : Reg) (nn : Byte) (s : State) : exec (.ldImm x nn) s = .next (s.setReg x nn).advance := rfl

theorem exec_addImm (x : Reg) (nn : Byte) (s : State) : exec (.addImm x nn) s = .next (s.setReg x (s.reg x + nn)).advance := rfl

/-- Settles O37: the primary opcode fixes the decoding, and the load is one register write before the advance. -/
theorem loadImmediateSetsTheRegister : Obligations.LoadImmediateSetsTheRegister :=
  ⟨fun _ h => decode_ldImm_of_fieldN1 (fieldN1_of_and_F000 h), fun x nn s => ⟨_, exec_ldImm x nn s, regResult_setReg_advance x nn s⟩⟩

/-- Settles O38: the add is one register write of the byte sum, which `BitVec.toNat_add` gives modulo 256; being the only write, it
leaves VF alone. -/
theorem addImmediateWrapsWithoutFlag : Obligations.AddImmediateWrapsWithoutFlag := by
  refine ⟨fun _ h => decode_addImm_of_fieldN1 (fieldN1_of_and_F000 h), fun x nn s => ?_⟩
  obtain ⟨hsum, hframe⟩ := regResult_setReg_advance x (s.reg x + nn) s
  refine ⟨_, exec_addImm x nn s, ?_, hframe⟩
  rw [hsum, BitVec.toNat_add]

end Sys2Proof.Machine

/-! SUPPORT. Proof of the statement about the load of the index register (43_index_memory.md R170). -/

namespace Sys2Proof.Machine

theorem decode_ldI_of_fieldN1 {op : Word} (h : fieldN1 op = 0xA) : decode op = .ok (.ldI (fieldNNN op)) := by
  rw [decode, h]
  rfl

theorem exec_ldI (nnn : Addr12) (s : State) : exec (.ldI nnn) s = .next (s.setI (target nnn)).advance := rfl

theorem keepsAllBut_setI (s : State) (w : Word) : KeepsAllBut [.i] s (s.setI w) := by
  intro p hp
  cases p <;> simp_all [Part.same]

/-- Settles O45: the primary opcode fixes the decoding, and the load is one write of `I` before the advance. -/
theorem loadIndexSetsI : Obligations.LoadIndexSetsI :=
  ⟨fun _ h => decode_ldI_of_fieldN1 (fieldN1_of_and_F000 h), fun nnn s => ⟨_, exec_ldI nnn s, rfl, target_toNat nnn, rfl,
    (keepsAllBut_setI s (target nnn)).trans (keepsAllBut_advance _)⟩⟩

end Sys2Proof.Machine

/-! SUPPORT. Proofs of the statements about the exception and the host's operations (60_exceptions.md R221, R231, R232): the one fault
a step raises, the timers' tick, and that every host operation keeps the invariant. -/

namespace Sys2Proof.Machine

/-! ### The one fault (60_exceptions.md R221) -/

theorem ite_refuse_ne_fault {c : Prop} [Decidable c] {r : Refusal} {t : State} {f : Fault} :
    (if c then refuse r else Host.Outcome.next t) ≠ .fault f := by
  unfold refuse
  split <;> nofun

theorem dite_refuse_ne_fault {c : Prop} [Decidable c] {t : c → State} {r : Refusal} {f : Fault} :
    (if h : c then Host.Outcome.next (t h) else refuse r) ≠ .fault f := by
  unfold refuse
  split <;> nofun

theorem execLdVxK_ne_fault (x : Reg) (s : State) (f : Fault) : execLdVxK x s ≠ .fault f := by
  unfold execLdVxK
  split <;> nofun

/-- An instruction completes or is refused: only those with a guard of their own need a look (`guardMem` is a guard of the first form). -/
theorem exec_ne_fault (i : Instr) (s : State) (f : Fault) : exec i s ≠ .fault f := by
  cases i with
  | drw | ldB | stRegs | ldRegs | skp | sknp | stFlags | ldFlags => exact ite_refuse_ne_fault
  | ret | call => exact dite_refuse_ne_fault
  | ldVxK x => exact execLdVxK_ne_fault x s f
  | _ => nofun

/-- A fault of a running machine comes from an opcode the decoder rejects. -/
theorem step_fault {s : State} {f : Fault} (hs : s.status = .running) (h : step s = .fault f) :
    ∃ op e, fetch s = .ok op ∧ decode op = .error e ∧ f = .unknownOpcode s.pc op := by
  simp only [step, hs] at h
  split at h
  next => cases h
  next op hop =>
    split at h
    next e he =>
      cases h
      exact ⟨op, e, hop, he, rfl⟩
    next i _ => exact absurd h (exec_ne_fault i s f)

theorem illegal_of_decode_error {op : Word} {e : DecodeError} (h : decode op = .error e) : legalOpcode op = false := by
  rw [← Bool.not_eq_true]
  intro hl
  obtain ⟨i, hi⟩ := exists_decode_of_legal hl
  rw [hi] at h
  cases h

theorem State.stepCall_status_of_fault {s : State} {f : Fault} (h : step s = .fault f) : s.stepCall.status = statusOfFault f := by
  rw [State.stepCall, h]
  rfl

/-- Settles O8: an illegal opcode is what the decoder rejects, and a step faults there or not at all. -/
theorem unknownOpcodeIsTheOnlyFault : Obligations.UnknownOpcodeIsTheOnlyFault := by
  refine ⟨fun s op hs hf hl => ?_, fun s f hs h => ?_, exec_ne_fault⟩
  · have hstep := step_of_decode_error hs hf (decode_of_illegal hl)
    exact ⟨hstep, State.stepCall_status_of_fault hstep, keepsAllBut_stepCall_of_fault hstep⟩
  · obtain ⟨op, e, hf, hd, rfl⟩ := step_fault hs h
    exact ⟨op, hf, illegal_of_decode_error hd, rfl⟩

/-! ### The tick (60_exceptions.md R232) -/

/-- Settles O57: a tick is `countDown` of each timer, two updates. -/
theorem tickCountsBothTimersDown : Obligations.TickCountsBothTimersDown := fun s =>
  ⟨countDown_toNat s.dt, countDown_toNat s.st, (keepsAllBut_setDt s _).trans (keepsAllBut_setSt _ _)⟩

/-! ### What each update asks for to keep the invariant -/

/-- The components the invariant speaks of. -/
def State.invParts (s : State) : Params × Memory × Framebuffer × Word × Fin 17 × Vector Word 16 :=
  (s.params, s.mem, s.fb, s.pc, s.sp, s.stack)

section
variable {s t : State}

theorem Inv.of_invParts_eq (hs : Inv s) (h : t.invParts = s.invParts) : Inv t := by
  simp only [State.invParts, Prod.mk.injEq] at h
  obtain ⟨hparams, hmem, hfb, hpc, hsp, hstack⟩ := h
  constructor
  · rw [hparams, hmem]
    exact hs.mem
  · rw [hfb]
    exact hs.fb
  · rw [hpc]
    exact hs.pc
  · rw [hsp, hstack]
    exact hs.live

theorem Inv.setPc {w : Word} (hs : Inv s) (hw : w.toNat ≤ 0x10FE) : Inv (s.setPc w) := ⟨hs.mem, hs.fb, hw, hs.live⟩

/-- A fetched opcode stands at 0xFFE at most, so `PC` is far from wrapping. -/
theorem Inv.advance (hs : Inv s) (hpc : s.pc.toNat ≤ 0xFFE) : Inv s.advance := hs.setPc (by bv_omega)

theorem Inv.skipIf (hs : Inv s) (hpc : s.pc.toNat ≤ 0xFFE) (c : Bool) : Inv (s.skipIf c) :=
  hs.setPc (by split <;> bv_omega)

theorem Inv.setFb {fb : Framebuffer} (hs : Inv s) (hfb : Framebuffer.wf fb = true) : Inv (s.setFb fb) :=
  ⟨hs.mem, hfb, hs.pc, hs.live⟩

theorem Inv.writeBytes {a : Nat} {bs : List Byte} (hs : Inv s) (h : a + bs.length ≤ 0x1000) : Inv (s.writeBytes a bs) :=
  ⟨Memory.wf_writeList hs.mem h, hs.fb, hs.pc, hs.live⟩

theorem Inv.setSp {n : Fin 17} (hs : Inv s) (hn : s.sp ≤ n) : Inv (s.setSp n) :=
  ⟨hs.mem, hs.fb, hs.pc, fun j hj => hs.live j (le_trans hn hj)⟩

/-- A push makes one more entry live, the address pushed. -/
theorem Inv.push {n : Nat} {w : Word} (hs : Inv s) (hn : s.sp.val = n + 1) (hn16 : n < 16) (hw : w.toNat ≤ 0xFFE) :
    Inv ((s.setSp ⟨n, by omega⟩).setStack (s.stack.set n w)) := by
  refine ⟨hs.mem, hs.fb, hs.pc, fun j hj => ?_⟩
  change n ≤ j.val at hj
  simp only [State.setStack_stack, Fin.getElem_fin, Vector.getElem_set]
  split
  next => exact hw
  next hne => exact hs.live j (by omega)

/-! ### Every instruction keeps the invariant -/

/-- The picture a draw leaves. -/
theorem Inv.wf_drawCells (hs : Inv s) (sh : SpriteShape) (x0 y0 : Nat) :
    Framebuffer.wf (drawCells s.fb (s.spriteCells sh x0 y0)).1 = true :=
  drawCells_wf hs.fb fun c hc => (s.spriteCells_lt sh x0 y0 c hc).trans_le s.dims_cells

theorem execRet_keeps_inv (hs : Inv s) (h : execRet s = .next t) : Inv t := by
  unfold execRet refuse at h
  split at h
  next hsp =>
    cases h
    have hlive : s.stack[s.sp.val].toNat ≤ 0xFFE := hs.live ⟨s.sp.val, hsp⟩ le_rfl
    exact Inv.setSp (hs.setPc (by bv_omega)) (Nat.le_succ s.sp.val)
  next => cases h

theorem execCall_keeps_inv {nnn : Addr12} (hs : Inv s) (hpc : s.pc.toNat ≤ 0xFFE) (h : execCall nnn s = .next t) : Inv t := by
  unfold execCall refuse at h
  split at h
  next hsp =>
    cases h
    refine Inv.setPc (hs.push (by omega) (by omega) hpc) ?_
    rw [target_toNat]
    omega
  next => cases h

theorem execLdVxK_keeps_inv {x : Reg} (hs : Inv s) (hpc : s.pc.toNat ≤ 0xFFE) (h : execLdVxK x s = .next t) : Inv t := by
  unfold execLdVxK at h
  split at h
  next =>
    cases h
    exact Inv.advance (hs.of_invParts_eq rfl) hpc
  next =>
    cases h
    exact hs

/-- The largest `PC`: `BNNN` adds at most 0xFF to at most 0xFFF (10_state.md R25). -/
theorem target_add_toNat_le (nnn : Addr12) (b : Byte) : (target nnn + b.setWidth 16).toNat ≤ 0x10FE := by
  have h := target_toNat nnn
  bv_omega

theorem exec_keeps_inv {i : Instr} (hs : Inv s) (hpc : s.pc.toNat ≤ 0xFFE) (h : exec i s = .next t) : Inv t := by
  cases i with
  | cls =>
    cases h
    exact Inv.advance ((hs.setFb Framebuffer.wf_nil).of_invParts_eq rfl) hpc
  | scd n =>
    cases h
    exact Inv.advance ((hs.setFb (Framebuffer.wf_scrollDown n.toNat s.dims_cells hs.fb)).of_invParts_eq rfl) hpc
  | scr =>
    cases h
    exact Inv.advance ((hs.setFb (Framebuffer.wf_scrollRight s.hscroll s.dims_cells hs.fb)).of_invParts_eq rfl) hpc
  | scl =>
    cases h
    exact Inv.advance ((hs.setFb (Framebuffer.wf_scrollLeft s.hscroll s.dims_cells hs.fb)).of_invParts_eq rfl) hpc
  | drw x y n =>
    obtain ⟨-, ht⟩ := guardMem_next h
    cases ht
    exact Inv.advance ((hs.setFb (hs.wf_drawCells _ _ _)).of_invParts_eq rfl) hpc
  | ret => exact execRet_keeps_inv hs h
  | call => exact execCall_keeps_inv hs hpc h
  | jp nnn =>
    cases h
    refine hs.setPc ?_
    rw [target_toNat]
    omega
  | jpV0 nnn =>
    cases h
    exact hs.setPc (target_add_toNat_le nnn _)
  | seImm | sneImm | seReg | sneReg =>
    cases h
    exact hs.skipIf hpc _
  | skp | sknp =>
    rw [ite_refuse_next h]
    exact hs.skipIf hpc _
  | ldVxK => exact execLdVxK_keeps_inv hs hpc h
  | ldB x =>
    obtain ⟨hlast, ht⟩ := guardMem_next h
    cases ht
    exact Inv.advance (hs.writeBytes (by rw [bcdDigits_length]; omega)) hpc
  | stRegs x =>
    obtain ⟨hlast, ht⟩ := guardMem_next h
    cases ht
    exact Inv.advance ((hs.writeBytes (by rw [State.regsTo_length]; omega)).of_invParts_eq rfl) hpc
  | ldRegs =>
    obtain ⟨-, ht⟩ := guardMem_next h
    cases ht
    exact Inv.advance (hs.of_invParts_eq rfl) hpc
  | stFlags | ldFlags =>
    rw [ite_refuse_next h]
    exact Inv.advance (hs.of_invParts_eq rfl) hpc
  | _ =>
    cases h
    exact Inv.advance (hs.of_invParts_eq rfl) hpc

/-- The fetch is what bounds `PC` before an instruction. -/
theorem step_keeps_inv (hs : Inv s) (h : step s = .next t) : Inv t := by
  obtain ⟨-, op, i, hf, -, hi⟩ := step_next h
  obtain ⟨hpc, -⟩ := fetch_ok hf
  exact exec_keeps_inv hs (by omega) hi

/-! ### Every host operation keeps the invariant (60_exceptions.md R231, R241) -/

theorem Inv.setStatus (hs : Inv s) (u : Status) : Inv (s.setStatus u) := hs.of_invParts_eq rfl

theorem Inv.stepCall (hs : Inv s) : Inv s.stepCall := by
  obtain h | ⟨u, hu⟩ := s.stepCall_cases
  · exact step_keeps_inv hs h
  · rw [hu]
    exact hs.setStatus u

/-- What a load leaves: the state as it was, or stopped, or with an image that fits copied to 0x200. -/
theorem State.afterLoad_loadProgram_cases (s : State) (source : Option (List Byte)) :
    s.afterLoad (s.loadProgram source) = s ∨ (∃ u, s.afterLoad (s.loadProgram source) = s.setStatus u) ∨
      ∃ bytes, bytes.length ≤ programCapacity ∧ s.afterLoad (s.loadProgram source) = s.writeBytes programBase bytes := by
  cases source with
  | none => exact .inl rfl
  | some bytes =>
    unfold State.loadProgram
    by_cases hlen : bytes.length > programCapacity
    · simp only [hlen, if_true, State.afterLoad]
      split
      next => exact .inr (.inl ⟨_, rfl⟩)
      next => exact .inl rfl
    · simp only [hlen, if_false, State.afterLoad]
      exact .inr (.inr ⟨bytes, by omega, rfl⟩)

theorem Inv.afterLoad_loadProgram (hs : Inv s) (source : Option (List Byte)) : Inv (s.afterLoad (s.loadProgram source)) := by
  obtain h | ⟨u, h⟩ | ⟨bytes, hlen, h⟩ := s.afterLoad_loadProgram_cases source <;> rw [h]
  · exact hs
  · exact hs.setStatus u
  · exact hs.writeBytes (Nat.add_le_add_left hlen programBase)

theorem HostOp.apply_keeps_inv (hs : Inv s) (op : HostOp) : Inv (op.apply s) := by
  cases op with
  | step => exact hs.stepCall
  | tick | updateKey | clearDraw => exact hs.of_invParts_eq rfl
  | loadProgram source => exact hs.afterLoad_loadProgram source

end

theorem State.init_inv (p : Params) : Inv (State.init p) where
  mem := Memory.wf_nil
  fb := Framebuffer.wf_nil
  pc := show pcReset.toNat ≤ 0x10FE by decide
  live j hj := absurd hj (Nat.not_le.2 j.isLt)

/-- What every host operation keeps holds after any sequence of them. -/
theorem State.hostRun_induction {P : State → Prop} {s : State} (hs : P s) (hop : ∀ s op, P s → P (HostOp.apply s op))
    (ops : List HostOp) : P (s.hostRun ops) :=
  List.foldlRecOn ops HostOp.apply hs fun s hs op _ => hop s op hs

/-- Settles O14: the invariant holds after `init()`, and every host operation keeps it. -/
theorem everyHostRunKeepsTheInvariant : Obligations.EveryHostRunKeepsTheInvariant := fun p ops =>
  State.hostRun_induction (State.init_inv p) (fun _ op hs => HostOp.apply_keeps_inv hs op) ops

end Sys2Proof.Machine

/-! SUPPORT. Proofs of the statements about the encoding both ways (30_encoding.md R72 to R77): every instruction is
read back from its opcode, and no opcode has two rows in the table. -/

namespace Sys2Proof

/-! ### The decoder reads every instruction back -/

theorem decode_encode_scd (n : Nibble) : decode (encode (.scd n)) = .ok (.scd n) := by
  revert n
  decide

/-- The fields of a packed opcode are the operands, so each format leaves one equation to reduce. -/
theorem decode_encode (i : Instr) : decode (encode i) = .ok i := by
  cases i with
  | cls | ret | scr | scl | low | high => rfl
  | scd n => exact decode_encode_scd n
  | jp | call | ldI | jpV0 => simp [encode, decode]
  | seImm | sneImm | ldImm | addImm | rnd => simp [encode, decode]
  | seReg | sneReg | drw => simp [encode, decode]
  | ldReg | orReg | andReg | xorReg | addReg | subReg | shr | subn | shl => simp [encode, decode, decodeAlu]
  | skp | sknp => simp [encode, decode, decodeKey]
  | _ => simp [encode, decode, decodeMisc]

theorem decodeTableWord_toNat (op : Word) : decodeTableWord 16 op.toNat = (decode op).toOption := by
  have hop : BitVec.ofNat 16 (op.toNat % 2 ^ 16) = op := by
    rw [Nat.mod_eq_of_lt op.isLt, BitVec.ofNat_toNat, BitVec.setWidth_eq]
  have hbytes := decodeBytes_bytesOfOpcode op []
  rw [List.append_nil] at hbytes
  rw [decodeTableWord, hop, hbytes]
  cases decode op <;> rfl

/-- Settles O1: the two bytes of an opcode are that opcode again, and `decode` inverts `encode`. -/
theorem decodeOfEncodeIsTheInstruction : Obligations.DecodeOfEncodeIsTheInstruction := by
  intro i rest
  rw [encodeBytes, decodeBytes_bytesOfOpcode, decodeTableWord_toNat, decode_encode]
  exact ⟨rfl, rfl⟩

/-- Settles O2: what the decoder answers encodes to the opcode. -/
theorem encodeOfDecodeIsTheOpcode : Obligations.EncodeOfDecodeIsTheOpcode := fun _ _ h => encode_of_decode h

/-! ### No opcode has two rows (30_encoding.md R76) -/

/-- Two rows that one opcode selects agree where both masks look. -/
theorem pattern_and_mask_of_selects {r r' : OpcodeRow} {op : Word} (h : r.selects op = true) (h' : r'.selects op = true) :
    r.pattern &&& r'.mask = r'.pattern &&& r.mask := by
  have hr : op &&& r.mask = r.pattern := eq_of_beq h
  have hr' : op &&& r'.mask = r'.pattern := eq_of_beq h'
  rw [← hr, ← hr', BitVec.and_assoc, BitVec.and_assoc, BitVec.and_comm r'.mask]

theorem opcodeTable_disjoint : ∀ r ∈ opcodeTable, ∀ r' ∈ opcodeTable,
    r.pattern &&& r'.mask = r'.pattern &&& r.mask → r = r' := by
  decide

/-- Settles O4: two different rows differ at a bit that both masks keep. -/
theorem noTwoTableRowsSelectOneOpcode : Obligations.NoTwoTableRowsSelectOneOpcode := fun _ r r' hr hr' h h' =>
  opcodeTable_disjoint r hr r' hr' (pattern_and_mask_of_selects h h')

/-- Settles O5: each opcode is the encoding of its instruction. -/
theorem sampleOpcodesDecode : Obligations.SampleOpcodesDecode :=
  ⟨decode_encode (.scd 2), decode_encode .ret, decode_encode (.call 0x400), decode_encode (.seImm 0xC 0x0F),
    decode_encode (.subn 1 2), decode_encode (.rnd 3 0x0F), decode_encode (.drw 0 1 1), decode_encode (.ldI 0x123),
    decode_encode (.stRegs 2), decode_encode (.skp 5), decode_encode (.ldVxK 3)⟩

end Sys2Proof

/-! SUPPORT. Proofs of the statements about every instruction and every step: the frame of each instruction (20_memory.md sections
1 and 4), and how a step runs, stops and stays stopped (30_encoding.md R83, 60_exceptions.md R222, R226). -/

namespace Sys2Proof.Machine

/-! ### Frames of the updates -/

theorem KeepsAllBut.mono {ps qs : List Part} {s t : State} (h : KeepsAllBut ps s t) (hsub : ps ⊆ qs) : KeepsAllBut qs s t :=
  fun p hp => h p fun hm => hp (hsub hm)

/-- A component found the same need not be named. -/
theorem KeepsAllBut.of_same {p : Part} {ps : List Part} {s t : State} (h : KeepsAllBut (p :: ps) s t) (hp : p.same s t) :
    KeepsAllBut ps s t := by
  intro q hq
  by_cases hqp : q = p
  · exact hqp ▸ hp
  · exact h q (List.not_mem_cons_of_ne_of_not_mem hqp hq)

section
variable (s : State)

theorem keepsAllBut_nil : KeepsAllBut [] s s := by
  intro p hp
  cases p <;> simp [Part.same]

theorem keepsAllBut_setV (v : Vector Byte 16) : KeepsAllBut [.v] s (s.setV v) := by
  intro p hp
  cases p <;> simp_all [Part.same]

theorem keepsAllBut_setPc (w : Word) : KeepsAllBut [.pc] s (s.setPc w) := by
  intro p hp
  cases p <;> simp_all [Part.same]

theorem keepsAllBut_setSp (n : Fin 17) : KeepsAllBut [.sp] s (s.setSp n) := by
  intro p hp
  cases p <;> simp_all [Part.same]

theorem keepsAllBut_setStack (k : Vector Word 16) : KeepsAllBut [.stack] s (s.setStack k) := by
  intro p hp
  cases p <;> simp_all [Part.same]

theorem keepsAllBut_setKey (k : Vector Bool 16) : KeepsAllBut [.key] s (s.setKey k) := by
  intro p hp
  cases p <;> simp_all [Part.same]

theorem keepsAllBut_setExt (b : Bool) : KeepsAllBut [.ext] s (s.setExt b) := by
  intro p hp
  cases p <;> simp_all [Part.same]

theorem keepsAllBut_setUflag (u : Vector Byte 8) : KeepsAllBut [.uflag] s (s.setUflag u) := by
  intro p hp
  cases p <;> simp_all [Part.same]

theorem keepsAllBut_setFb (fb : Framebuffer) : KeepsAllBut [.fb] s (s.setFb fb) := by
  intro p hp
  cases p <;> simp_all [Part.same]

theorem keepsAllBut_setRngCount (n : Nat) : KeepsAllBut [.rngCount] s (s.setRngCount n) := by
  intro p hp
  cases p <;> simp_all [Part.same]

theorem keepsAllBut_writeBytes (a : Nat) (bs : List Byte) : KeepsAllBut [.mem] s (s.writeBytes a bs) := by
  intro p hp
  cases p <;> simp_all [Part.same]

end

/-! ### What the stack instructions answer as a next state -/

theorem execRet_next {s t : State} (h : execRet s = .next t) :
    ∃ hsp : s.sp.val < 16, t = (s.setPc (s.stack[s.sp.val] + 2)).setSp ⟨s.sp.val + 1, by omega⟩ := by
  unfold execRet refuse at h
  split at h
  next hsp =>
    cases h
    exact ⟨hsp, rfl⟩
  next => cases h

theorem execCall_next {nnn : Addr12} {s t : State} (h : execCall nnn s = .next t) : ∃ hsp : 0 < s.sp.val,
    t = ((s.setSp ⟨s.sp.val - 1, by omega⟩).setStack (s.stack.set (s.sp.val - 1) s.pc)).setPc (target nnn) := by
  unfold execCall refuse at h
  split at h
  next hsp =>
    cases h
    exact ⟨hsp, rfl⟩
  next => cases h

/-- `FX0A` goes on with the lowest key down, or changes nothing. -/
theorem execLdVxK_next {x : Reg} {s t : State} (h : execLdVxK x s = .next t) :
    (∃ k, s.lowestKey = some k ∧ t = (s.setReg x (BitVec.ofNat 8 k)).advance) ∨ s.lowestKey = none ∧ t = s := by
  unfold execLdVxK at h
  split at h
  next k hk =>
    cases h
    exact .inl ⟨k, hk, rfl⟩
  next hk =>
    cases h
    exact .inr ⟨hk, rfl⟩

/-! ### The frame of every instruction -/

/-- The result of a flag-writing operation and the advance. -/
theorem keepsAllBut_writeResult_advance (s : State) (x : Reg) (b : Byte) (c : Bool) :
    KeepsAllBut [.v, .pc] s (s.writeResult x b c).advance :=
  (((keepsAllBut_setReg s x b).trans (keepsAllBut_setReg _ vf _)).trans (keepsAllBut_advance _)).mono (by decide)

/-- The components an instruction leaves alone: its updates, one after the other, each with its own frame. -/
theorem exec_keepsAllBut {i : Instr} {s t : State} (h : exec i s = .next t) : KeepsAllBut (.v :: .pc :: mayWrite i) s t := by
  cases i with
  | cls | scd | scr | scl =>
    cases h
    exact (((keepsAllBut_setFb s _).trans (keepsAllBut_setDraw _ true)).trans (keepsAllBut_advance _)).mono (by simp [mayWrite])
  | drw =>
    obtain ⟨-, ht⟩ := guardMem_next h
    cases ht
    exact ((((keepsAllBut_setFb s _).trans (keepsAllBut_setReg _ vf _)).trans (keepsAllBut_setDraw _ _)).trans
      (keepsAllBut_advance _)).mono (by simp [mayWrite])
  | low | high =>
    cases h
    exact ((keepsAllBut_setExt s _).trans (keepsAllBut_advance _)).mono (by simp [mayWrite])
  | ret =>
    obtain ⟨-, rfl⟩ := execRet_next h
    exact ((keepsAllBut_setPc s _).trans (keepsAllBut_setSp _ _)).mono (by simp [mayWrite])
  | call =>
    obtain ⟨-, rfl⟩ := execCall_next h
    exact (((keepsAllBut_setSp s _).trans (keepsAllBut_setStack _ _)).trans (keepsAllBut_setPc _ _)).mono (by simp [mayWrite])
  | jp | jpV0 =>
    cases h
    exact (keepsAllBut_setPc s _).mono (by simp)
  | seImm | sneImm | seReg | sneReg =>
    cases h
    exact (keepsAllBut_skipIf s _).mono (by simp)
  | skp | sknp =>
    rw [ite_refuse_next h]
    exact (keepsAllBut_skipIf s _).mono (by simp)
  | ldImm | addImm | ldReg | orReg | andReg | xorReg | ldVxDt =>
    cases h
    exact (keepsAllBut_setReg s _ _).trans (keepsAllBut_advance _)
  | addReg | subReg | shr | subn | shl =>
    cases h
    exact keepsAllBut_writeResult_advance s _ _ _
  | rnd =>
    cases h
    exact (((keepsAllBut_setRngCount s _).trans (keepsAllBut_setReg _ _ _)).trans (keepsAllBut_advance _)).mono
      (by simp [mayWrite])
  | ldVxK x =>
    obtain ⟨k, -, rfl⟩ | ⟨-, rfl⟩ := execLdVxK_next h
    · exact (keepsAllBut_setReg s x _).trans (keepsAllBut_advance _)
    · exact (keepsAllBut_nil t).mono (by simp)
  | ldDtVx =>
    cases h
    exact ((keepsAllBut_setDt s _).trans (keepsAllBut_advance _)).mono (by simp [mayWrite])
  | ldStVx =>
    cases h
    exact ((keepsAllBut_setSt s _).trans (keepsAllBut_advance _)).mono (by simp [mayWrite])
  | ldI | ldF | ldHf =>
    cases h
    exact ((keepsAllBut_setI s _).trans (keepsAllBut_advance _)).mono (by simp [mayWrite])
  | addI =>
    cases h
    exact (((keepsAllBut_setI s _).trans (keepsAllBut_setReg _ vf _)).trans (keepsAllBut_advance _)).mono (by simp [mayWrite])
  | ldB =>
    obtain ⟨-, ht⟩ := guardMem_next h
    cases ht
    exact ((keepsAllBut_writeBytes s _ _).trans (keepsAllBut_advance _)).mono (by simp [mayWrite])
  | stRegs =>
    obtain ⟨-, ht⟩ := guardMem_next h
    cases ht
    exact (((keepsAllBut_writeBytes s _ _).trans (keepsAllBut_setI _ _)).trans (keepsAllBut_advance _)).mono (by simp [mayWrite])
  | ldRegs =>
    obtain ⟨-, ht⟩ := guardMem_next h
    cases ht
    exact (((keepsAllBut_setV s _).trans (keepsAllBut_setI _ _)).trans (keepsAllBut_advance _)).mono (by simp [mayWrite])
  | stFlags =>
    rw [ite_refuse_next h]
    exact ((keepsAllBut_setUflag s _).trans (keepsAllBut_advance _)).mono (by simp [mayWrite])
  | ldFlags =>
    rw [ite_refuse_next h]
    exact (keepsAllBut_setV s _).trans (keepsAllBut_advance _)

/-- Entries above the list written from index 0 on are kept. -/
theorem writeFrom_zero_getElem_of_le {α : Type} {n : Nat} {bs : List α} {xs : Vector α n} {k : Nat} (hk : k < n)
    (h : bs.length ≤ k) : (writeFrom xs 0 bs)[k] = xs[k] := by
  rw [writeFrom_getElem bs xs 0 k hk, dif_neg (by omega)]

/-- The registers an instruction leaves alone. -/
theorem exec_keeps_reg {i : Instr} {s t : State} {r : Reg} (h : exec i s = .next t) (hr : ¬ WritesReg i r) :
    t.reg r = s.reg r := by
  cases i with
  | ldImm | addImm | ldReg | orReg | andReg | xorReg | rnd | ldVxDt =>
    cases h
    exact State.setReg_reg_other _ _ hr
  | ldVxK x =>
    obtain ⟨k, -, rfl⟩ | ⟨-, rfl⟩ := execLdVxK_next h
    · exact State.setReg_reg_other _ _ hr
    · rfl
  | addReg | subReg | shr | subn | shl =>
    cases h
    obtain ⟨hx, hvf⟩ := not_or.1 hr
    exact (State.writeResult_reg _ _ _ _ r).trans ((if_neg hvf).trans (if_neg hx))
  | addI =>
    cases h
    exact State.setReg_reg_other _ _ hr
  | drw =>
    obtain ⟨-, ht⟩ := guardMem_next h
    cases ht
    exact State.setReg_reg_other _ _ hr
  | ldRegs x =>
    obtain ⟨-, ht⟩ := guardMem_next h
    cases ht
    exact writeFrom_zero_getElem_of_le r.isLt (by rw [State.readBytes_length]; exact Nat.lt_of_not_le hr)
  | ldFlags x =>
    rw [ite_refuse_next h]
    exact writeFrom_zero_getElem_of_le r.isLt ((List.length_take_le _ _).trans (Nat.lt_of_not_le hr))
  | ldB | stRegs =>
    obtain ⟨-, ht⟩ := guardMem_next h
    cases ht
    rfl
  | skp | sknp | stFlags =>
    rw [ite_refuse_next h]
    rfl
  | ret =>
    obtain ⟨-, rfl⟩ := execRet_next h
    rfl
  | call =>
    obtain ⟨-, rfl⟩ := execCall_next h
    rfl
  | _ =>
    cases h
    rfl

/-- Settles O15: the two frames. -/
theorem instructionsWriteOnlyWhatTheirRulesName : Obligations.InstructionsWriteOnlyWhatTheirRulesName := fun _ _ _ h =>
  ⟨fun _ hr => exec_keeps_reg h hr, exec_keepsAllBut h⟩

/-- The frame of an instruction that writes no register. -/
theorem exec_keepsAllBut_of_no_reg {i : Instr} {s t : State} (h : exec i s = .next t) (hi : ∀ r, ¬ WritesReg i r) :
    KeepsAllBut (.pc :: mayWrite i) s t :=
  (exec_keepsAllBut h).of_same (p := .v) fun r => exec_keeps_reg h (hi r)

/-! ### One step (30_encoding.md R83) -/

/-- Settles O13: a step is one instruction on a fetched opcode. -/
theorem everyStepKeepsTheInvariant : Obligations.EveryStepKeepsTheInvariant := fun _ _ hs h => step_keeps_inv hs h

/-- Settles O12: the base case of the invariant. -/
theorem invariantHoldsAfterInit : Obligations.InvariantHoldsAfterInit := State.init_inv

theorem fetch_of_le {s : State} (h : s.pc.toNat + 1 ≤ 0xFFF) :
    fetch s = .ok (opcodeOfBytes (s.readByte s.pc.toNat) (s.readByte (s.pc.toNat + 1))) := by
  rw [fetch, if_neg (by omega)]

theorem fetch_of_gt {s : State} (h : 0xFFF < s.pc.toNat + 1) : fetch s = .error (.fetchOutOfRange s.pc) := by
  rw [fetch, if_pos h]

theorem step_of_decode {s : State} {op : Word} {i : Instr} (hs : s.status = .running) (hf : fetch s = .ok op)
    (hd : decode op = .ok i) : step s = exec i s := by
  simp only [step, hs, hf, hd]

theorem step_of_fetch_error {s : State} {r : Refusal} (hs : s.status = .running) (hf : fetch s = .error r) :
    step s = .refused r := by
  simp only [step, hs, hf]

theorem decode_of_decodeBytes {lower upper : Byte} {i : Instr} (h : decodeBytes [lower, upper] = .ok (i, [])) :
    decode (opcodeOfBytes lower upper) = .ok i := by
  rw [decodeBytes] at h
  cases hd : decode (opcodeOfBytes lower upper) with
  | ok j =>
    rw [hd] at h
    cases h
    rfl
  | error e =>
    rw [hd] at h
    cases h

/-- Settles O6: the fetch reads those two bytes. -/
theorem stepRunsTheDecodedInstruction : Obligations.StepRunsTheDecodedInstruction := fun _ _ hs hpc hd =>
  step_of_decode hs (fetch_of_le hpc) (decode_of_decodeBytes hd)

/-- Settles O7: the fetch comes before everything else. -/
theorem fetchPastTheTopIsRefused : Obligations.FetchPastTheTopIsRefused := fun _ hs hpc =>
  step_of_fetch_error hs (fetch_of_gt hpc)

/-- Settles O19: the opcode fetched decodes to the jump, which sets `PC` to what it is. -/
theorem selfJumpStandsStill : Obligations.SelfJumpStandsStill := by
  rintro s hs ⟨nnn, hf, htarget⟩
  have hexec : exec (.jp nnn) s = .next (s.setPc (target nnn)) := rfl
  rw [step_of_decode hs hf (decode_encode (.jp nnn)), hexec, htarget]
  rfl

/-! ### A step that stops (60_exceptions.md R222, R226) -/

theorem not_canStep_of_stopped {s : State} (h : s.status ≠ .running) : ¬ CanStep s := fun ⟨_, ht⟩ => h (step_next ht).1

/-- A stopped machine answers what its status records, which leaves the status as it is. -/
theorem State.stepCall_of_stopped {s : State} (h : s.status ≠ .running) : s.stepCall = s := by
  have hsame : s.setStatus s.status = s := rfl
  rw [State.stepCall, step]
  cases hs : s.status with
  | running => exact absurd hs h
  | faulted | refused =>
    rw [hs] at hsame
    exact hsame

theorem State.afterLoad_loadProgram_of_stopped {s : State} (h : s.status ≠ .running) (source : Option (List Byte)) :
    (s.afterLoad (s.loadProgram source)).status = s.status := by
  cases source with
  | none => rfl
  | some bytes =>
    unfold State.loadProgram
    by_cases hlen : bytes.length > programCapacity
    · simp only [hlen, if_true, State.afterLoad, h, if_false]
    · simp only [hlen, if_false, State.afterLoad, State.writeBytes_status]

theorem HostOp.apply_of_stopped {s : State} (h : s.status ≠ .running) (op : HostOp) : (HostOp.apply s op).status = s.status := by
  cases op with
  | step => exact congrArg State.status (State.stepCall_of_stopped h)
  | tick | updateKey | clearDraw => rfl
  | loadProgram source => exact State.afterLoad_loadProgram_of_stopped h source

/-- Settles O9: no operation of the host changes a status that is not `running`. -/
theorem stoppedMachineHasNoFurtherStep : Obligations.StoppedMachineHasNoFurtherStep := by
  refine fun s hs => ⟨not_canStep_of_stopped hs, State.stepCall_of_stopped hs, fun ops => ?_⟩
  refine State.hostRun_induction (P := fun t => t.status = s.status) rfl (fun t op ht => ?_) ops
  exact (HostOp.apply_of_stopped (ht ▸ hs) op).trans ht

theorem exec_keeps_status {i : Instr} {s t : State} (h : exec i s = .next t) : t.status = s.status :=
  exec_keepsAllBut h .status (by cases i <;> simp [mayWrite])

/-- Settles O10: a next state is that of an instruction, which leaves the status; any other answer changes the status alone. -/
theorem stopsArePrecise : Obligations.StopsArePrecise := by
  intro s hs
  cases h : step s with
  | next t =>
    obtain ⟨-, op, i, -, -, hi⟩ := step_next h
    exact .inl ⟨t, rfl, by rw [State.stepCall, h]; rfl, (exec_keeps_status hi).trans hs⟩
  | fault f =>
    refine .inr ⟨fun ⟨_, ht⟩ => (nomatch h.symm.trans ht), ?_, keepsAllBut_stepCall_of_fault h⟩
    rw [State.stepCall_status_of_fault h]
    cases f
    nofun
  | refused r =>
    refine .inr ⟨fun ⟨_, ht⟩ => (nomatch h.symm.trans ht), ?_, ?_⟩ <;> rw [State.stepCall, h]
    · nofun
    · exact keepsAllBut_setStatus s _

end Sys2Proof.Machine

/-! SUPPORT. Proofs of the statements about the control flow (41_control_flow.md R120 to R122, R125 to R127): the stack,
the jumps and the skips on registers. -/

namespace Sys2Proof.Machine

/-! ### The stack (R120, R122) -/

theorem exec_ret_of_lt {s : State} (h : s.sp.val < 16) :
    exec .ret s = .next ((s.setPc (s.stack[s.sp.val] + 2)).setSp ⟨s.sp.val + 1, by omega⟩) := dif_pos h

theorem exec_call_of_pos {s : State} (nnn : Addr12) (h : 0 < s.sp.val) : exec (.call nnn) s =
    .next (((s.setSp ⟨s.sp.val - 1, by omega⟩).setStack (s.stack.set (s.sp.val - 1) s.pc)).setPc (target nnn)) := dif_pos h

theorem exec_ret_frame {s t : State} (h : exec .ret s = .next t) : KeepsAllBut [.pc, .sp] s t :=
  exec_keepsAllBut_of_no_reg h fun _ => id

theorem exec_call_frame {nnn : Addr12} {s t : State} (h : exec (.call nnn) s = .next t) : KeepsAllBut [.pc, .sp, .stack] s t :=
  exec_keepsAllBut_of_no_reg h fun _ => id

/-- Settles O29: the next state is written out in `exec_ret_of_lt`. -/
theorem returnPopsTheCallSite : Obligations.ReturnPopsTheCallSite := fun _ h =>
  ⟨_, exec_ret_of_lt h, rfl, rfl, exec_ret_frame (exec_ret_of_lt h)⟩

/-- Settles O31: one stack entry is set. -/
theorem callPushesItsOwnAddress : Obligations.CallPushesItsOwnAddress := by
  refine fun nnn s h => ⟨_, exec_call_of_pos nnn h, rfl, fun j => ?_, target_toNat nnn, exec_call_frame (exec_call_of_pos nnn h)⟩
  simp only [State.setPc_stack, State.setStack_stack, Fin.getElem_fin, Vector.getElem_set, eq_comm]

/-- Settles O32: the return reads the entry the call set, and raises `SP` where the call lowered it. -/
theorem callThenReturnComesBack : Obligations.CallThenReturnComesBack := by
  intro nnn s h
  have hcall := exec_call_of_pos nnn h
  have hret := exec_ret_of_lt (s := ((s.setSp ⟨s.sp.val - 1, by omega⟩).setStack (s.stack.set (s.sp.val - 1) s.pc)).setPc
    (target nnn)) (show s.sp.val - 1 < 16 by omega)
  have hsp : (⟨s.sp.val - 1 + 1, by omega⟩ : Fin 17) = s.sp := Fin.ext (Nat.sub_add_cancel h)
  refine ⟨_, _, hcall, hret, ?_, hsp, ?_⟩
  · simp
  · exact (((exec_call_frame hcall).trans (exec_ret_frame hret)).mono (qs := [.sp, .pc, .stack]) (by decide)).of_same hsp

/-- Settles O33: the checks of the two instructions. -/
theorem stackLimitsAreRefused : Obligations.StackLimitsAreRefused := fun _ =>
  ⟨fun h => dif_neg (by rw [h]; decide), fun h _ => dif_neg (by rw [h]; decide)⟩

/-! ### Jumps (R121, R127) -/

theorem decode_jp_of_fieldN1 {op : Word} (h : fieldN1 op = 0x1) : decode op = .ok (.jp (fieldNNN op)) := by
  rw [decode, h]
  rfl

theorem exec_jp (nnn : Addr12) (s : State) : exec (.jp nnn) s = .next (s.setPc (target nnn)) := rfl

theorem exec_jpV0 (nnn : Addr12) (s : State) : exec (.jpV0 nnn) s = .next (s.setPc (target nnn + (s.reg 0).setWidth 16)) := rfl

/-- Settles O30: the jump is one write of `PC`, and the refusal is that of the next fetch. -/
theorem jumpGoesToItsTarget : Obligations.JumpGoesToItsTarget := by
  refine ⟨fun op h => decode_jp_of_fieldN1 (fieldN1_of_and_F000 h), fun nnn s => ⟨_, exec_jp nnn s, rfl, target_toNat nnn,
    keepsAllBut_setPc s _, fun h => ?_, fun h hs => ?_⟩⟩
  · have hpc : target nnn = s.pc := h
    rw [hpc]
    rfl
  · subst h
    exact step_of_fetch_error hs (fetch_of_gt (s := s.setPc (target 0xFFF)) (by rw [State.setPc_pc]; decide))

/-- 12 bits and 8 bits make no carry out of 16. -/
theorem target_add_toNat (nnn : Addr12) (b : Byte) : (target nnn + b.setWidth 16).toNat = nnn.toNat + b.toNat := by
  have h := target_toNat nnn
  bv_omega

/-- Settles O36: the sum is kept whole. -/
theorem jumpWithOffsetAddsV0 : Obligations.JumpWithOffsetAddsV0 := fun nnn s =>
  ⟨_, exec_jpV0 nnn s, target_add_toNat nnn _, keepsAllBut_setPc s _⟩

/-! ### Skips on registers (R125, R126) -/

section
variable {op : Word}

theorem fieldN1_of_and_F00F {p : Word} (h : op &&& 0xF00F = p) : fieldN1 op = fieldN1 p :=
  have hmask : (0xF00F : Word).extractLsb' 12 4 = BitVec.allOnes 4 := by decide
  extractLsb'_of_selects (r := ⟨p, 0xF00F⟩) (beq_iff_eq.2 h) 12 4 hmask

theorem fieldN_of_and_F00F {p : Word} (h : op &&& 0xF00F = p) : fieldN op = fieldN p :=
  have hmask : (0xF00F : Word).extractLsb' 0 4 = BitVec.allOnes 4 := by decide
  extractLsb'_of_selects (r := ⟨p, 0xF00F⟩) (beq_iff_eq.2 h) 0 4 hmask

theorem and_000F_of_fieldN (h : fieldN op = 0) : op &&& 0x000F = 0 := by
  have hmod : op.toNat % 16 = 0 := by
    have := congrArg BitVec.toNat h
    simpa [fieldN] using this
  apply BitVec.eq_of_toNat_eq
  rw [BitVec.toNat_and]
  exact (Nat.and_two_pow_sub_one_eq_mod op.toNat 4).trans hmod

theorem decode_of_fieldN1_5 (h : fieldN1 op = 0x5) :
    decode op = if fieldN op = 0 then .ok (.seReg (fieldX op) (fieldY op)) else .error (.unknownOpcode op) := by
  rw [decode, h]
  rfl

theorem decode_of_fieldN1_9 (h : fieldN1 op = 0x9) :
    decode op = if fieldN op = 0 then .ok (.sneReg (fieldX op) (fieldY op)) else .error (.unknownOpcode op) := by
  rw [decode, h]
  rfl

end

theorem exec_seReg (x y : Reg) (s : State) : exec (.seReg x y) s = .next (s.skipIf (s.reg x == s.reg y)) := rfl

theorem exec_sneReg (x y : Reg) (s : State) : exec (.sneReg x y) s = .next (s.skipIf (s.reg x != s.reg y)) := rfl

/-- Settles O35: the primary opcode leaves one check, of the low nibble, and both are `skipIf` of their comparison. -/
theorem skipOnRegisters : Obligations.SkipOnRegisters := by
  refine ⟨fun op h => ?_, fun op h => ?_, fun op h hlow => ?_, fun x y s =>
    ⟨⟨_, exec_seReg x y s, ?_, ?_, keepsAllBut_skipIf s _⟩, ⟨_, exec_sneReg x y s, ?_, ?_, keepsAllBut_skipIf s _⟩⟩⟩
  · exact (decode_of_fieldN1_5 (fieldN1_of_and_F00F h)).trans (if_pos (fieldN_of_and_F00F h))
  · exact (decode_of_fieldN1_9 (fieldN1_of_and_F00F h)).trans (if_pos (fieldN_of_and_F00F h))
  · have hN : fieldN op ≠ 0 := fun hN => hlow (and_000F_of_fieldN hN)
    obtain h | h := h
    · exact (decode_of_fieldN1_5 (fieldN1_of_and_F000 h)).trans (if_neg hN)
    · exact (decode_of_fieldN1_9 (fieldN1_of_and_F000 h)).trans (if_neg hN)
  · simp only [State.skipIf_pc, beq_iff_eq]
  · rintro rfl
    simp only [State.skipIf_pc, beq_self_eq_true, if_true]
  · simp only [State.skipIf_pc, bne_iff_ne]
  · rintro rfl
    simp only [State.skipIf_pc, bne_self_eq_false, Bool.false_eq_true, if_false]

end Sys2Proof.Machine

/-! SUPPORT. Proofs of the statements about register arithmetic, logic and the random byte (42_alu.md R144 to R154): one register
write, or a result and then a flag. -/

namespace Sys2Proof.Machine

/-! ### One register write (R144 to R147, R153) -/

theorem decode_ldReg_of_fields {op : Word} (h1 : fieldN1 op = 0x8) (hN : fieldN op = 0) :
    decode op = .ok (.ldReg (fieldX op) (fieldY op)) := by
  rw [decode, h1]
  change decodeAlu op = _
  rw [decodeAlu, hN]
  rfl

theorem exec_ldReg (x y : Reg) (s : State) : exec (.ldReg x y) s = .next (s.setReg x (s.reg y)).advance := rfl

/-- A register set to the value it holds keeps every register. -/
theorem State.setReg_reg_self (s : State) (x r : Reg) : (s.setReg x (s.reg x)).reg r = s.reg r := by
  rw [State.setReg_reg]
  split
  next h => rw [h]
  next => rfl

/-- Settles O39: the copy is one register write before the advance. -/
theorem copySetsTheRegister : Obligations.CopySetsTheRegister := by
  refine ⟨fun op h => decode_ldReg_of_fields (fieldN1_of_and_F00F h) (fieldN_of_and_F00F h), fun x y s =>
    ⟨_, exec_ldReg x y s, regResult_setReg_advance x (s.reg y) s, ?_⟩⟩
  rintro rfl
  exact ((keepsAllBut_setReg s x _).trans (keepsAllBut_advance _)).of_same (s.setReg_reg_self x)

/-- Settles O40: each is one register write before the advance. -/
theorem bitwiseOperationsLeaveVF : Obligations.BitwiseOperationsLeaveVF := fun x _ s =>
  ⟨⟨_, rfl, regResult_setReg_advance x _ s⟩, ⟨_, rfl, regResult_setReg_advance x _ s⟩, ⟨_, rfl, regResult_setReg_advance x _ s⟩⟩

theorem exec_rnd (x : Reg) (nn : Byte) (s : State) :
    exec (.rnd x nn) s = .next ((s.setRngCount (s.rngCount + 1)).setReg x (Config.rng s.rngCount &&& nn)).advance := rfl

/-- Settles O44: the byte asked for goes through the mask, whatever it is. -/
theorem randomByteIsMasked : Obligations.RandomByteIsMasked := by
  intro x nn s
  obtain ⟨hreg, hregs, -, -⟩ := regResult_setReg_advance x (Config.rng s.rngCount &&& nn) (s.setRngCount (s.rngCount + 1))
  refine ⟨_, exec_rnd x nn s, hreg, fun j hj => ?_, fun h => ?_, rfl, hregs, rfl,
    exec_keepsAllBut (exec_rnd x nn s)⟩ <;> rw [hreg]
  · rw [BitVec.getLsbD_and, hj, Bool.and_false]
  · rw [h]
    exact BitVec.and_zero

/-! ### A result and then a flag (R141, R148 to R152) -/

theorem flagByte_toNat (c : Bool) : (flagByte c).toNat = c.toNat := by cases c <;> rfl

theorem flagByte_decide_toNat (p : Prop) [Decidable p] : (flagByte (decide p)).toNat = if p then 1 else 0 := by
  rw [flagByte_toNat]
  split
  next h => rw [decide_eq_true h]; rfl
  next h => rw [decide_eq_false h]; rfl

/-- `writeResult` and the advance after it are the whole of `FlagResult`. -/
theorem flagResult_writeResult_advance {x : Reg} {b : Byte} {c : Bool} {result flag : Nat} (s : State) (hb : b.toNat = result)
    (hc : (flagByte c).toNat = flag) : FlagResult x result flag s (s.writeResult x b c).advance := by
  have hreg := s.writeResult_reg x b c
  refine ⟨?_, fun hx => ?_, fun r hr => ?_, rfl, keepsAllBut_writeResult_advance s x b c⟩ <;> rw [State.advance_reg, hreg]
  · exact hc
  · rw [if_neg (show x ≠ vf from hx), if_pos rfl, hb]
  · simp only [List.mem_cons, List.not_mem_nil, or_false, not_or] at hr
    exact (if_neg hr.2).trans (if_neg hr.1)

theorem sub_toNat_mod (a b : Byte) : (a - b).toNat = (256 + a.toNat - b.toNat) % 256 := by
  have hb : b.toNat < 256 := b.isLt
  rw [BitVec.toNat_sub]
  omega

/-- Settles O41: the sum and the carry of `execAddReg` as numbers. -/
theorem addSetsCarry : Obligations.AddSetsCarry := fun _ _ s =>
  ⟨_, rfl, flagResult_writeResult_advance s (BitVec.toNat_add ..) (flagByte_decide_toNat _)⟩

/-- Settles O42: the difference and the borrow, with either operand first. -/
theorem subtractSetsNoBorrow : Obligations.SubtractSetsNoBorrow := fun _ _ s =>
  ⟨⟨_, rfl, flagResult_writeResult_advance s (sub_toNat_mod ..) (flagByte_decide_toNat _)⟩,
    ⟨_, rfl, flagResult_writeResult_advance s (sub_toNat_mod ..) (flagByte_decide_toNat _)⟩⟩

theorem State.shiftOperand_eq (s : State) (x y : Reg) :
    s.shiftOperand x y = if s.params.shiftSrc = .vx then s.reg x else s.reg y := by
  unfold State.shiftOperand
  cases s.params.shiftSrc <;> rfl

theorem shiftRight_one_toNat (b : Byte) : (b >>> 1).toNat = b.toNat / 2 := by
  rw [BitVec.toNat_ushiftRight, Nat.shiftRight_one]

theorem shiftLeft_one_toNat (b : Byte) : (b <<< 1).toNat = b.toNat * 2 % 256 := by
  rw [BitVec.toNat_shiftLeft, Nat.shiftLeft_eq]

theorem flagByte_getLsbD_toNat (b : Byte) (k : Nat) : (flagByte (b.getLsbD k)).toNat = b.toNat / 2 ^ k % 2 := by
  rw [flagByte_toNat]
  exact Nat.toNat_testBit b.toNat k

theorem flagByte_shiftedOutRight_toNat (b : Byte) : (flagByte (shiftedOutRight b)).toNat = b.toNat % 2 := by
  rw [shiftedOutRight, flagByte_getLsbD_toNat, pow_zero, Nat.div_one]

/-- Bit 7 is the highest, so nothing is left above it. -/
theorem flagByte_shiftedOutLeft_toNat (b : Byte) : (flagByte (shiftedOutLeft b)).toNat = b.toNat / 128 := by
  have hb : b.toNat < 256 := b.isLt
  rw [shiftedOutLeft, flagByte_getLsbD_toNat]
  omega

/-- Settles O43: the shifted source and the bit put out as numbers. -/
theorem shiftsPutTheirBitInVF : Obligations.ShiftsPutTheirBitInVF := by
  intro x y s b hb
  rw [← State.shiftOperand_eq] at hb
  subst hb
  exact ⟨⟨_, rfl, flagResult_writeResult_advance s (shiftRight_one_toNat _) (flagByte_shiftedOutRight_toNat _)⟩,
    ⟨_, rfl, flagResult_writeResult_advance s (shiftLeft_one_toNat _) (flagByte_shiftedOutLeft_toNat _)⟩⟩

end Sys2Proof.Machine

/-! SUPPORT. Proofs of the statements about the index register, the memory transfers and the user flags
(43_index_memory.md R171 to R179). -/

namespace Sys2Proof.Machine

/-! ### The index register (R171 to R173) -/

theorem exec_addI (x : Reg) (s : State) : exec (.addI x) s = .next ((s.setI (BitVec.ofNat 16 (s.i.toNat + (s.reg x).toNat))).setVF
    (flagByte (indexOverflow s.params (s.i.toNat + (s.reg x).toNat)))).advance := rfl

theorem flagByte_decide (p : Prop) [Decidable p] : flagByte (decide p) = if p then 1 else 0 := by
  simp only [flagByte, decide_eq_true_eq]

theorem indexOverflow_carry16 {p : Params} (h : p.fx1eFlag = .carry16) (sum : Nat) :
    indexOverflow p sum = decide (sum > 0xFFFF) := by
  rw [indexOverflow, h]

theorem indexOverflow_aboveFff {p : Params} (h : p.fx1eFlag = .aboveFff) (sum : Nat) :
    indexOverflow p sum = decide (sum > 0x0FFF) := by
  rw [indexOverflow, h]

/-- Settles O46: the sum is written to `I` modulo 65536, and VF takes the overflow the parameter asks for. -/
theorem addToIndexReportsOverflow : Obligations.AddToIndexReportsOverflow := by
  intro x s
  have hexec := exec_addI x s
  refine ⟨_, hexec, BitVec.toNat_ofNat _ _, fun h => ?_, fun h => ?_, fun r hr => exec_keeps_reg hexec
    (mt List.mem_singleton.2 hr), rfl, (exec_keepsAllBut hexec).mono (by simp [mayWrite])⟩
  · rw [indexOverflow_carry16 h, flagByte_decide]
    exact State.setVF_reg_vf _ _
  · rw [indexOverflow_aboveFff h, flagByte_decide]
    exact State.setVF_reg_vf _ _

theorem glyphLo_toNat (d : Byte) : (glyphLo d).toNat = 5 * d.toNat := by
  have hd : d.toNat < 256 := d.isLt
  rw [glyphLo, fontLoBase, BitVec.toNat_ofNat]
  omega

theorem glyphHi_toNat (d : Byte) : (glyphHi d).toNat = 0x50 + 10 * d.toNat := by
  have hd : d.toNat < 256 := d.isLt
  rw [glyphHi, fontHiBase, BitVec.toNat_ofNat]
  omega

/-- Settles O47: both are one write of `I`, of an address below 65536. -/
theorem glyphAddressesAreSet : Obligations.GlyphAddressesAreSet := fun _ s =>
  ⟨⟨_, rfl, glyphLo_toNat _, rfl, (keepsAllBut_setI s _).trans (keepsAllBut_advance _)⟩,
    ⟨_, rfl, glyphHi_toNat _, rfl, (keepsAllBut_setI s _).trans (keepsAllBut_advance _)⟩⟩

/-! ### The memory transfers (R174 to R176) -/

theorem exec_ldB_of_le {x : Reg} {s : State} (h : s.i.toNat + 2 ≤ 0xFFF) :
    exec (.ldB x) s = .next (s.writeBytes s.i.toNat (bcdDigits (s.reg x))).advance := guardMem_of_le h _

theorem exec_stRegs_of_le {x : Reg} {s : State} (h : s.i.toNat + x.val ≤ 0xFFF) :
    exec (.stRegs x) s = .next ((s.writeBytes s.i.toNat (s.regsTo x)).bumpI x).advance := guardMem_of_le h _

theorem exec_ldRegs_of_le {x : Reg} {s : State} (h : s.i.toNat + x.val ≤ 0xFFF) : exec (.ldRegs x) s =
    .next ((s.setV (writeFrom s.v 0 (s.readBytes s.i.toNat (x.val + 1)))).bumpI x).advance := guardMem_of_le h _

/-- Settles O51: the range guard of each. -/
theorem memoryTransfersPastTheTopAreRefused : Obligations.MemoryTransfersPastTheTopAreRefused := fun _ _ =>
  ⟨fun h => guardMem_of_gt h _, fun h => ⟨guardMem_of_gt h _, guardMem_of_gt h _⟩⟩

/-- A byte of those stored. -/
theorem State.readByte_writeBytes_add (s : State) (a : Nat) {bs : List Byte} {j : Nat} (h : j < bs.length) :
    (s.writeBytes a bs).readByte (a + j) = bs[j] := by
  rw [State.readByte_writeBytes, dif_pos (by omega)]
  simp only [Nat.add_sub_cancel_left]

theorem State.readByte_writeBytes_regsTo (s : State) (a : Nat) {x j : Reg} (h : j.val ≤ x.val) :
    (s.writeBytes a (s.regsTo x)).readByte (a + j.val) = s.reg j := by
  have hlen : j.val < (s.regsTo x).length := by
    rw [State.regsTo_length]
    omega
  rw [State.readByte_writeBytes_add s a hlen, State.regsTo_getElem]

theorem bcdDigits_toNat (b : Byte) : (bcdDigits b).map BitVec.toNat = [b.toNat / 100, b.toNat / 10 % 10, b.toNat % 10] := by
  have hb : b.toNat < 256 := b.isLt
  simp only [bcdDigits, List.map_cons, List.map_nil, BitVec.toNat_ofNat, List.cons.injEq, and_true]
  omega

theorem State.readByte_writeBytes_bcdDigits (s : State) (a : Nat) (b : Byte) {j : Nat} (h : j < 3) :
    ((s.writeBytes a (bcdDigits b)).readByte (a + j)).toNat = [b.toNat / 100, b.toNat / 10 % 10, b.toNat % 10][j] := by
  rw [State.readByte_writeBytes_add s a (bs := bcdDigits b) h]
  simp only [← bcdDigits_toNat, List.getElem_map]
  rfl

/-- Settles O48: the three digits are three bytes of one run of writes. -/
theorem decimalDigitsAreStored : Obligations.DecimalDigitsAreStored := by
  intro x s h
  have hexec := exec_ldB_of_le (x := x) h
  have hbyte (j : Nat) (hj : j < 3) := s.readByte_writeBytes_bcdDigits s.i.toNat (s.reg x) hj
  refine ⟨_, hexec, hbyte 0 (by decide), hbyte 1 (by decide), hbyte 2 (by decide), (hbyte 0 (by decide)).trans_le ?_,
    fun a ha => ?_, rfl, (exec_keepsAllBut_of_no_reg hexec fun _ => id).mono (by simp [mayWrite])⟩
  · have hx : (s.reg x).toNat < 256 := (s.reg x).isLt
    simp only [List.getElem_cons_zero]
    omega
  · exact State.readByte_writeBytes_outside s (by rw [bcdDigits_length]; omega)

theorem State.indexInc_le (s : State) (x : Reg) : s.indexInc x ≤ x.val + 1 := by
  unfold State.indexInc
  split
  next => omega
  next => split <;> omega

/-- The increment of `I` does not wrap where the transfer was in range. -/
theorem State.bumpI_i_toNat {s : State} {x : Reg} (h : s.i.toNat + x.val ≤ 0xFFF) :
    (s.bumpI x).i.toNat = s.i.toNat + s.indexInc x := by
  have hinc := s.indexInc_le x
  rw [State.bumpI_i, BitVec.toNat_ofNat, Nat.mod_eq_of_lt (by omega)]

/-- Settles O49: the registers are one run of writes, and `I` takes `indexInc`. -/
theorem storeRegistersWritesThemInOrder : Obligations.StoreRegistersWritesThemInOrder := by
  intro x s h
  have hexec := exec_stRegs_of_le h
  refine ⟨_, hexec, fun j hj => s.readByte_writeBytes_regsTo _ hj, fun a ha => ?_, State.bumpI_i_toNat h, rfl,
    (exec_keepsAllBut_of_no_reg hexec fun _ => id).mono (by simp [mayWrite])⟩
  exact State.readByte_writeBytes_outside s (by rw [State.regsTo_length]; omega)

/-- Settles O50: the bytes are written into the registers from V0 on, and `I` takes `indexInc`. -/
theorem loadRegistersReadsThemInOrder : Obligations.LoadRegistersReadsThemInOrder := by
  intro x s h
  have hexec := exec_ldRegs_of_le h
  refine ⟨_, hexec, fun j => ?_, State.bumpI_i_toNat h, rfl, (exec_keepsAllBut hexec).mono (by simp [mayWrite])⟩
  split
  next hj =>
    refine (writeFrom_getElem _ s.v 0 j.val j.isLt).trans ((dif_pos ?_).trans ?_)
    · rw [State.readBytes_length]
      omega
    · rw [State.readBytes_getElem, Nat.sub_zero]
  next hj => exact exec_keeps_reg hexec hj

/-- Settles O20: the fetch reads two of the bytes stored. -/
theorem fetchSeesTheBytesJustStored : Obligations.FetchSeesTheBytesJustStored := by
  intro x s h
  refine ⟨_, exec_stRegs_of_le h, fun j hj hjx hpc => ?_⟩
  have hlower := s.readByte_writeBytes_regsTo s.i.toNat (x := x) (j := j) (by omega)
  have hupper := s.readByte_writeBytes_regsTo s.i.toNat (x := x) (j := ⟨j.val + 1, hj⟩) hjx
  rw [fetch_of_le (by omega), hpc, Nat.add_assoc]
  simp only [State.advance_readByte, State.bumpI_readByte, hlower, hupper, opcodeOfBytes]

/-! ### The user flags (R177, R178) -/

theorem exec_stFlags_of_le {x : Reg} {s : State} (h : x.val ≤ 7) :
    exec (.stFlags x) s = .next (s.setUflag (writeFrom s.uflag 0 (s.regsTo x))).advance := if_neg (by omega)

theorem exec_ldFlags_of_le {x : Reg} {s : State} (h : x.val ≤ 7) :
    exec (.ldFlags x) s = .next (s.setV (writeFrom s.v 0 (s.uflag.toList.take (x.val + 1)))).advance := if_neg (by omega)

/-- An entry of those written from index 0 on. -/
theorem writeFrom_zero_getElem_of_lt {α : Type} {n : Nat} {bs : List α} {xs : Vector α n} {k : Nat} (hk : k < n)
    (h : k < bs.length) : (writeFrom xs 0 bs)[k] = bs[k] := by
  rw [writeFrom_getElem bs xs 0 k hk, dif_pos (by omega)]
  rfl

/-- Settles O52: each is a run of entries written from index 0 on. -/
theorem userFlagsAreStoredAndLoaded : Obligations.UserFlagsAreStoredAndLoaded := by
  intro x s h
  have hst := exec_stFlags_of_le (s := s) h
  have hld := exec_ldFlags_of_le (s := s) h
  refine ⟨⟨_, hst, fun j => ?_, rfl, (exec_keepsAllBut_of_no_reg hst fun _ => id).mono (by simp [mayWrite])⟩,
    ⟨_, hld, fun j hj => ?_, fun r hr => exec_keeps_reg hld (Nat.not_le.2 hr), rfl, exec_keepsAllBut hld⟩⟩
  · split
    next hj =>
      refine (writeFrom_zero_getElem_of_lt j.isLt ?_).trans (State.regsTo_getElem ..)
      rw [State.regsTo_length]
      omega
    next hj => exact writeFrom_zero_getElem_of_le j.isLt (by rw [State.regsTo_length]; omega)
  · have hlen : j.val < (s.uflag.toList.take (x.val + 1)).length := by
      rw [List.length_take, Vector.length_toList]
      omega
    refine (writeFrom_zero_getElem_of_lt (show j.val < 16 by omega) hlen).trans ?_
    rw [List.getElem_take, Vector.getElem_toList]
    rfl

/-- Settles O53: the check of the two instructions. -/
theorem userFlagIndexAboveSevenIsRefused : Obligations.UserFlagIndexAboveSevenIsRefused := fun _ _ h => ⟨if_pos h, if_pos h⟩

end Sys2Proof.Machine

/-! SUPPORT. Proofs of the statements about the display (40_display.md R100 to R109): the screen and the sprite of the
model against those of `Safety.lean`, the scrolls, and the draw. -/

namespace Sys2Proof.Machine

/-! ### Clearing and the mode (R100, R104, R105) -/

/-- Settles O21: the empty list has no lit cell. -/
theorem clearScreenTurnsEveryCellOff : Obligations.ClearScreenTurnsEveryCellOff := fun s =>
  ⟨_, rfl, Framebuffer.lit_nil, rfl, rfl,
    (exec_keepsAllBut_of_no_reg (i := .cls) (s := s) rfl fun _ => id).mono (by decide)⟩

/-- Settles O25: each is one write of the mode before the advance. -/
theorem modeSwitchChangesOnlyTheMode : Obligations.ModeSwitchChangesOnlyTheMode := fun s =>
  ⟨⟨_, rfl, rfl, rfl, (keepsAllBut_setExt s false).trans (keepsAllBut_advance _)⟩,
    ⟨_, rfl, rfl, rfl, (keepsAllBut_setExt s true).trans (keepsAllBut_advance _)⟩⟩

/-! ### Scrolls (R101 to R103) -/

theorem State.dims_eq (s : State) : s.dims = ⟨screenW s.ext, screenH s.ext⟩ := by
  unfold State.dims screenW screenH
  split <;> rfl

theorem exec_scd (n : Nibble) (s : State) : exec (.scd n) s =
    .next ((s.setFb (Framebuffer.scrollDown ⟨screenW s.ext, screenH s.ext⟩ n.toNat s.fb)).setDraw true).advance := by
  rw [← State.dims_eq]
  rfl

theorem exec_scr (s : State) : exec .scr s =
    .next ((s.setFb (Framebuffer.scrollRight ⟨screenW s.ext, screenH s.ext⟩ s.hscroll s.fb)).setDraw true).advance := by
  rw [← State.dims_eq]
  rfl

theorem exec_scl (s : State) : exec .scl s =
    .next ((s.setFb (Framebuffer.scrollLeft ⟨screenW s.ext, screenH s.ext⟩ s.hscroll s.fb)).setDraw true).advance := by
  rw [← State.dims_eq]
  rfl

/-- Settles O22: `Framebuffer.lit_scrollDown` on the screen. -/
theorem scrollDownMovesRows : Obligations.ScrollDownMovesRows := fun n s =>
  ⟨_, exec_scd n s, fun _ _ hx hy => Framebuffer.lit_scrollDown n.toNat s.fb hx hy,
    fun _ hc => Framebuffer.lit_scrollDown_outside n.toNat s.fb hc, rfl, rfl,
    (exec_keepsAllBut_of_no_reg (exec_scd n s) fun _ => id).mono (by simp [mayWrite])⟩

/-- Settles O23: `Framebuffer.lit_scrollRight` on the screen, by the distance of the mode. -/
theorem scrollRightMovesColumns : Obligations.ScrollRightMovesColumns := by
  rintro s k rfl
  exact ⟨_, exec_scr s, fun _ _ hx hy => Framebuffer.lit_scrollRight s.hscroll s.fb hx hy,
    fun _ hc => Framebuffer.lit_scrollRight_outside s.hscroll s.fb hc, rfl, rfl,
    (exec_keepsAllBut_of_no_reg (exec_scr s) fun _ => id).mono (by decide)⟩

/-- Settles O24: `Framebuffer.lit_scrollLeft` on the screen, by the distance of the mode. -/
theorem scrollLeftMovesColumns : Obligations.ScrollLeftMovesColumns := by
  rintro s k rfl
  refine ⟨_, exec_scl s, fun x y hx hy => ?_, fun _ hc => Framebuffer.lit_scrollLeft_outside s.hscroll s.fb hc, rfl, rfl,
    (exec_keepsAllBut_of_no_reg (exec_scl s) fun _ => id).mono (by decide)⟩
  have hinside : x + s.hscroll ≤ screenW s.ext - 1 ↔ x + s.hscroll < screenW s.ext := by omega
  exact (Framebuffer.lit_scrollLeft s.hscroll s.fb hx hy).trans (if_congr hinside rfl rfl)

/-! ### The sprite (R106, R107) -/

theorem spriteShape_eq (n : Nibble) (ext : Bool) : spriteShape n ext = ⟨spriteRows n, spriteWidth n ext, spriteBpr n ext⟩ := by
  unfold spriteShape spriteRows spriteWidth spriteBpr
  by_cases hn : n = 0
  · subst hn
    cases ext <;> rfl
  · simp only [hn, false_and, if_false]

theorem spriteLast_eq (n : Nibble) (s : State) : spriteLast n s = s.i.toNat + (spriteShape n s.ext).bytes - 1 := by
  rw [spriteShape_eq]
  rfl

/-- The cells that the sprite of `DXYN` at `I` flips, drawn at `V[x]` and `V[y]`. -/
def State.drawnCells (s : State) (x y : Reg) (n : Nibble) : List Nat :=
  s.spriteCells (spriteShape n s.ext) (s.reg x).toNat (s.reg y).toNat

theorem State.mem_drawnCells (s : State) (x y : Reg) (n : Nibble) (c : Nat) :
    c ∈ s.drawnCells x y n ↔ SpriteHits x y n s c := by
  simp only [State.drawnCells, State.mem_spriteCells, SpriteHits, spriteShape_eq, State.spriteBit, spriteCell, Dims.cellOf,
    State.dims_eq, eq_comm (b := c)]

theorem State.drawnCells_lt (s : State) (x y : Reg) (n : Nibble) : ∀ c ∈ s.drawnCells x y n, c < fbCells :=
  fun c hc => (s.spriteCells_lt _ _ _ c hc).trans_le s.dims_cells

theorem State.drawnCells_nodup (s : State) (x y : Reg) (n : Nibble) : (s.drawnCells x y n).Nodup := s.spriteCells_nodup n _ _

section
variable {s : State} (x y : Reg) (n : Nibble) (hfb : Framebuffer.wf s.fb = true)
include hfb

theorem lit_drawCells_drawnCells (c : Nat) : Framebuffer.lit (drawCells s.fb (s.drawnCells x y n)).1 c = true ↔
    ¬ (Framebuffer.lit s.fb c = true ↔ SpriteHits x y n s c) := by
  rw [(drawCells_spec hfb (s.drawnCells_nodup x y n) (s.drawnCells_lt x y n)).1, bne_iff_ne, ne_eq, Bool.eq_iff_iff,
    decide_eq_true_iff, State.mem_drawnCells]

theorem drawCells_drawnCells_collides : (drawCells s.fb (s.drawnCells x y n)).2 = true ↔ SpriteCollides x y n s := by
  rw [(drawCells_spec hfb (s.drawnCells_nodup x y n) (s.drawnCells_lt x y n)).2, List.any_eq_true]
  simp only [State.mem_drawnCells, SpriteCollides]

end

/-! ### The draw (R107 to R109) -/

section
variable {s t : State} {x y : Reg} {n : Nibble}

theorem exec_drw_of_le (h : spriteLast n s ≤ 0xFFF) : exec (.drw x y n) s =
    .next (((s.setFb (drawCells s.fb (s.drawnCells x y n)).1).setVF (flagByte (drawCells s.fb (s.drawnCells x y n)).2)).setDraw
      (s.drawFlagAfter (drawCells s.fb (s.drawnCells x y n)).2)).advance :=
  guardMem_of_le (spriteLast_eq n s ▸ h) _

theorem exec_drw_fb (h : exec (.drw x y n) s = .next t) : t.fb = (drawCells s.fb (s.drawnCells x y n)).1 := by
  obtain ⟨-, ht⟩ := guardMem_next h
  cases ht
  rfl

/-- The parts of a state a sprite is taken from. -/
theorem spriteHits_congr (hx : t.reg x = s.reg x) (hy : t.reg y = s.reg y) (hi : t.i = s.i) (hext : t.ext = s.ext)
    (hmem : ∀ a, t.readByte a = s.readByte a) (c : Nat) : SpriteHits x y n t c ↔ SpriteHits x y n s c := by
  simp only [SpriteHits, hx, hy, hi, hext, hmem]

end

/-- Settles O27: the range guard of the draw. -/
theorem drawPastTheTopIsRefused : Obligations.DrawPastTheTopIsRefused := fun _ _ n s h =>
  guardMem_of_gt (spriteLast_eq n s ▸ h) _

/-- Settles O26: the cells drawn are those the sprite hits, each once. -/
theorem drawXorsTheSpriteAndReportsCollision : Obligations.DrawXorsTheSpriteAndReportsCollision := by
  intro x y n s hfb hlast
  have hexec := exec_drw_of_le (x := x) (y := y) hlast
  have hcoll := drawCells_drawnCells_collides x y n hfb
  refine ⟨_, hexec, lit_drawCells_drawnCells x y n hfb, fun h => ?_, fun h => ?_,
    fun r hr => exec_keeps_reg hexec (mt List.mem_singleton.2 hr), rfl, (exec_keepsAllBut hexec).mono (by simp [mayWrite])⟩
  · rw [hcoll.2 h]
    exact ⟨State.setVF_reg_vf _ _, by simp [State.drawFlagAfter]⟩
  · rw [Bool.eq_false_iff.2 (mt hcoll.1 h)]
    exact ⟨State.setVF_reg_vf _ _, by simp [State.drawFlagAfter]⟩

/-- Settles O28: the second draw is of the same sprite at the same place, as no draw writes what the sprite is taken from. -/
theorem drawingTwiceRestoresThePicture : Obligations.DrawingTwiceRestoresThePicture := by
  intro x y n s hfb hlast hx hy
  obtain ⟨t, ht, hlit, -, hmiss, hregs, -, hkeeps⟩ := drawXorsTheSpriteAndReportsCollision x y n s hfb hlast
  have hext : t.ext = s.ext := hkeeps .ext (by decide)
  have hi : t.i = s.i := hkeeps .i (by decide)
  have hhits (c : Nat) : SpriteHits x y n t c ↔ SpriteHits x y n s c :=
    spriteHits_congr (hregs x (by simpa using hx)) (hregs y (by simpa using hy)) hi hext (hkeeps .mem (by decide)) c
  have htfb : Framebuffer.wf t.fb = true := exec_drw_fb ht ▸ drawCells_wf hfb (s.drawnCells_lt x y n)
  have htlast : spriteLast n t ≤ 0xFFF := by rwa [spriteLast, hext, hi]
  obtain ⟨u, hu, hlit', hcollide, -⟩ := drawXorsTheSpriteAndReportsCollision x y n t htfb htlast
  refine ⟨t, u, ht, hu, fun c => ?_, fun hblank hex => ?_⟩
  · rw [Bool.eq_iff_iff, hlit', hlit, hhits]
    by_cases hc : SpriteHits x y n s c <;> simp [hc]
  · obtain ⟨c, hc⟩ := hex
    have hcoll : SpriteCollides x y n t := ⟨c, (hhits c).2 hc, (hlit c).2 (by simp [hblank, hc])⟩
    refine ⟨(hmiss ?_).1, (hcollide hcoll).1⟩
    rintro ⟨d, -, hd⟩
    exact Bool.false_ne_true ((hblank d).symm.trans hd)

end Sys2Proof.Machine

/-! SUPPORT. Proofs of the statements about the keypad (44_keypad_timers.md R200 to R206, 60_exceptions.md R235), the reset values
(10_state.md R41) and the load of a program (70_reset_and_hazards.md R262, R263). -/

namespace Sys2Proof.Machine

/-! ### Skips on a key (R200 to R202) -/

section
variable {s : State} {x : Reg} {k : Fin 16}

theorem exec_skp_of_reg (h : (s.reg x).toNat = k.val) : exec (.skp x) s = .next (s.skipIf s.key[k]) := by
  have hle : ¬ k.val > 15 := by omega
  simp only [exec, execSkp, h, hle, if_false, State.keyDown_eq]

theorem exec_sknp_of_reg (h : (s.reg x).toNat = k.val) : exec (.sknp x) s = .next (s.skipIf !s.key[k]) := by
  have hle : ¬ k.val > 15 := by omega
  simp only [exec, execSknp, h, hle, if_false, State.keyDown_eq]

theorem State.skipIf_not_pc (s : State) (c : Bool) : (s.skipIf !c).pc = if c = true then s.pc + 2 else s.pc + 4 := by
  cases c <;> rfl

/-! ### The wait for a key (R206) -/

theorem exec_ldVxK_of_some {j : Nat} (h : s.lowestKey = some j) :
    exec (.ldVxK x) s = .next (s.setReg x (BitVec.ofNat 8 j)).advance := by
  simp only [exec, execLdVxK, h]

theorem exec_ldVxK_of_none (h : s.lowestKey = none) : exec (.ldVxK x) s = .next s := by
  simp only [exec, execLdVxK, h]

theorem State.lowestKey_eq_some (hk : s.key[k] = true) (hlow : ∀ j : Fin 16, j.val < k.val → s.key[j] = false) :
    s.lowestKey = some k.val := by
  refine List.find?_range_eq_some.2 ⟨(s.keyDown_eq k).trans hk, List.mem_range.2 k.isLt, fun j hj => ?_⟩
  have hup := hlow ⟨j, by omega⟩ hj
  rw [← State.keyDown_eq] at hup
  simp [hup]

/-- With a key down the wait ends, with that key or a lower one. -/
theorem State.exists_lowestKey_le (hk : s.key[k] = true) : ∃ j ≤ k.val, s.lowestKey = some j := by
  obtain ⟨j, hj⟩ := Option.isSome_iff_exists.1 (s.lowestKey_isSome_iff.2 ⟨k, hk⟩)
  obtain ⟨-, -, hlow⟩ := State.lowestKey_some hj
  refine ⟨j, Nat.not_lt.1 fun hlt => ?_, hj⟩
  have hup := hlow k.val hlt
  rw [State.keyDown_eq, hk] at hup
  cases hup

end

/-- Settles O54: in range the two skip on the key named, above they refuse. -/
theorem keySkipsTestTheKeyOfVx : Obligations.KeySkipsTestTheKeyOfVx := fun _ s =>
  ⟨fun _ h => ⟨⟨_, exec_skp_of_reg h, rfl, keepsAllBut_skipIf s _⟩,
    ⟨_, exec_sknp_of_reg h, s.skipIf_not_pc _, keepsAllBut_skipIf s _⟩⟩, fun h => ⟨if_pos h, if_pos h⟩⟩

/-- Settles O55: the key described is the lowest, and with none down there is none. -/
theorem waitForKeyPolls : Obligations.WaitForKeyPolls := by
  refine fun x s => ⟨fun k hk hlow => ⟨_, exec_ldVxK_of_some (State.lowestKey_eq_some hk hlow), regResult_setReg_advance x _ s⟩,
    fun hup => exec_ldVxK_of_none (State.lowestKey_none.2 fun k hk => ?_)⟩
  exact (s.keyDown_eq ⟨k, hk⟩).trans (hup ⟨k, hk⟩)

theorem State.updateKey_key (s : State) (k j : Fin 16) (p : Bool) :
    (s.updateKey k p).key[j] = if j = k then p else s.key[j] := by
  simp only [State.updateKey, State.setKey_key, Fin.getElem_fin, Vector.getElem_set, Fin.ext_iff, eq_comm]

/-- Settles O58: `updateKey` sets one key, and the three instructions read it there. -/
theorem keyUpdateSetsTheKeyInstructionsRead : Obligations.KeyUpdateSetsTheKeyInstructionsRead := by
  intro s k p
  have hk : (s.updateKey k p).key[k] = p := (s.updateKey_key k k p).trans (if_pos rfl)
  refine ⟨fun j => s.updateKey_key k j p, keepsAllBut_setKey s _, fun x hx => ?_, fun hp x => ?_⟩
  · have hskp := exec_skp_of_reg (s := s.updateKey k p) hx
    have hsknp := exec_sknp_of_reg (s := s.updateKey k p) hx
    rw [hk] at hskp hsknp
    exact ⟨⟨_, hskp, rfl⟩, ⟨_, hsknp, State.skipIf_not_pc _ p⟩⟩
  · obtain ⟨j, hjk, hj⟩ := State.exists_lowestKey_le (hk.trans hp)
    refine ⟨_, exec_ldVxK_of_some hj, rfl, ?_⟩
    rw [State.advance_reg, State.setReg_reg_same, BitVec.toNat_ofNat]
    exact (Nat.mod_le _ _).trans hjk

/-! ### Reset (10_state.md R41) -/

/-- Settles O11: the contents of memory are `resetByte`, every other component is written out in `State.init`. -/
theorem initIsTheResetState : Obligations.InitIsTheResetState := by
  intro p
  refine ⟨fun r => ?_, rfl, rfl, rfl, rfl, rfl, fun k => ?_, rfl, fun j => ?_, rfl, Params.resetByte_fontLo p,
    fun j hj => Params.resetByte_fontHi p hj, fun a ha _ => Params.resetByte_above p ha, fun j => ?_,
    Framebuffer.lit_nil, rfl, rfl⟩
  · exact Vector.getElem_replicate r.isLt
  · exact Vector.getElem_replicate k.isLt
  · exact Vector.getElem_replicate j.isLt
  · exact Vector.getElem_replicate j.isLt

/-! ### The load of a program (70_reset_and_hazards.md R262, R263) -/

section
variable (s : State) {bytes : List Byte}

theorem State.loadProgram_of_le (h : bytes.length ≤ 0xE00) :
    s.loadProgram (some bytes) = .ok (s.writeBytes programBase bytes) := if_neg (Nat.not_lt.2 h)

theorem State.loadProgram_of_gt (h : 0xE00 < bytes.length) : s.loadProgram (some bytes) = .refused .imageTooLarge := if_pos h

theorem State.keepsAllBut_afterLoad_refused (r : Refusal) : KeepsAllBut [.status] s (s.afterLoad (.refused r)) := by
  rw [State.afterLoad]
  split
  next => exact keepsAllBut_setStatus s _
  next => exact (keepsAllBut_nil s).mono (List.nil_subset _)

end

/-- Settles O59: an image that fits is one run of writes, any other writes nothing. -/
theorem loadProgramCopiesTheImage : Obligations.LoadProgramCopiesTheImage := by
  refine fun s => ⟨fun bytes h => ⟨_, s.loadProgram_of_le h, fun j hj => s.readByte_writeBytes_add 0x200 hj,
    fun a ha => s.readByte_writeBytes_outside ha, keepsAllBut_writeBytes s _ _⟩, fun bytes h => ?_, rfl, rfl⟩
  rw [s.loadProgram_of_gt h]
  exact ⟨rfl, s.keepsAllBut_afterLoad_refused _⟩

end Sys2Proof.Machine
